-- ==== Sys2Proof/Word.lean ====
section
/-! DEFINITION. The widths of the COM block's values (spec R6, R9, R36, R57). Every value is unsigned. -/

namespace Sys2Proof

/-- A register value, `wdata` or `rdata`: one 32-bit double word (R6, R9, R43). -/
abbrev Word := BitVec 32

/-- The 16-bit contents of ComRx, and the part of `wdata` ComTx uses (R6). -/
abbrev Half := BitVec 16

/-- One byte of a transfer (R88). -/
abbrev Byte := BitVec 8

/-- A byte offset in the 256-byte window (R36). -/
abbrev Offset := BitVec 8

/-- The 9-bit request word `req` = W ++ off (R57). -/
abbrev ReqWord := BitVec 9

end Sys2Proof
end

