-- ==== Sys2Proof/Machine/Operands.lean ====
section
/-! DEFINITION. Operand forms: what a write takes from `wdata` (R60) and what a read composes into `rdata` (R61). -/

namespace Sys2Proof.Machine

/-- `bit0(wdata)` (R60). -/
def bit0 (wdata : Word) : Bool := wdata.getLsbD 0

/-- `bit1(wdata)` (R60). -/
def bit1 (wdata : Word) : Bool := wdata.getLsbD 1

/-- `tx_lo(wdata)` = `wdata[7:0]`, the first byte sent (R60, R90). -/
def txLo (wdata : Word) : Byte := wdata.extractLsb' 0 8

/-- `tx_hi(wdata)` = `wdata[15:8]`, the second byte sent (R60, R90). -/
def txHi (wdata : Word) : Byte := wdata.extractLsb' 8 8

/-- `r1 ++ r0`: the first reply in the low byte, the second in the high byte (R91). -/
def assembleRx (first second : Byte) : Half := second ++ first

/-- `pair(b1, b0)` = zext_32(b1 ++ b0) (R61). -/
def pair (b1 b0 : Bool) : Word := (BitVec.ofBool b1 ++ BitVec.ofBool b0).setWidth 32

/-- `zext_32` of a 16-bit value (R61). -/
def zext32 (v : Half) : Word := v.setWidth 32

end Sys2Proof.Machine
end

