-- ==== Sys2Proof/Config.lean ====
section
/-! DEFINITION. What the spec leaves to the platform or to the attached peripheral (R7): constants without a body, so
that no proof can see their value and a theorem holds whatever they are. -/

namespace Sys2Proof

/-- The two orders in which a system bus can lay the four byte lanes of a double word on byte addresses (R45, D5).
DESIGN CHOICE (log 15, safe): the two orders a bus is known to use; no rule of the block depends on it. -/
inductive ByteOrder where
  /-- bits 7..0 at the lowest address -/
  | little
  /-- bits 31..24 at the lowest address -/
  | big
  deriving DecidableEq, Repr, Inhabited

/-- `COM_BASE`: the system-bus address of offset 0x00 (R7, R37, D6: OPEN). -/
opaque Config.comBase : Nat

/-- `COM_IRQ`: which interrupt-controller input the line drives (R7, R103, D7: OPEN). -/
opaque Config.comIrq : Nat

/-- `BUS_BYTE_ORDER`: the lane order of the system bus (R7, R45, D5: OPEN). -/
opaque Config.busByteOrder : ByteOrder

/-- The free value of a transfer: what the peripheral named `device` replies to its draw number `draw` when it is sent
`sent` (R88, D11: "any byte, chosen by the environment, under no law"). Free value (log 6, DESIGN CHOICE, safe). -/
opaque Config.transmitReply (device draw : Nat) (sent : Byte) : Byte

end Sys2Proof
end

