-- ==== Sys2Proof/Syntax.lean ====
section
/-! DEFINITION. The bus transactions of the block, one constructor for each of the 26 rows of spec/opcode_table.json
(R3, R62). A row whose offsets are a class carries the offset `off`; a write carries its operand `wdata` (R57). -/

namespace Sys2Proof

/-- A bus transaction (R3: "each (read or write, offset class) pair is one instruction"). -/
inductive Instr where
  /-- RD.TX, offset 0x00 (R70) -/
  | rdTx
  /-- RD.RX, offset 0x04 (R71) -/
  | rdRx
  /-- RD.CONTROL, offset 0x08 (R72) -/
  | rdControl
  /-- RD.STATUS, offset 0x0c (R73) -/
  | rdStatus
  /-- RD.EV_STATUS, offset 0x10 (R74) -/
  | rdEvStatus
  /-- RD.EV_PENDING, offset 0x14 (R75) -/
  | rdEvPending
  /-- RD.EV_ENABLE, offset 0x18 (R76) -/
  | rdEvEnable
  /-- RD.UNMAPPED.1C, offset 0x1c (R77) -/
  | rdUnmapped1C
  /-- RD.UNMAPPED.20, offsets 0x20 to 0x3c in steps of 4 (R77) -/
  | rdUnmapped20 (off : Offset)
  /-- RD.UNMAPPED.40, offsets 0x40 to 0x7c in steps of 4 (R77) -/
  | rdUnmapped40 (off : Offset)
  /-- RD.UNMAPPED.80, offsets 0x80 to 0xfc in steps of 4 (R77) -/
  | rdUnmapped80 (off : Offset)
  /-- RD.MISALIGNED.ODD, every odd offset (R78) -/
  | rdMisalignedOdd (off : Offset)
  /-- RD.MISALIGNED.HALF, every offset that is 2 modulo 4 (R78) -/
  | rdMisalignedHalf (off : Offset)
  /-- WR.TX, offset 0x00 (R89) -/
  | wrTx (wdata : Word)
  /-- WR.RX, offset 0x04 (R80) -/
  | wrRx (wdata : Word)
  /-- WR.CONTROL, offset 0x08 (R81) -/
  | wrControl (wdata : Word)
  /-- WR.STATUS, offset 0x0c (R82) -/
  | wrStatus (wdata : Word)
  /-- WR.EV_STATUS, offset 0x10 (R83) -/
  | wrEvStatus (wdata : Word)
  /-- WR.EV_PENDING, offset 0x14 (R84) -/
  | wrEvPending (wdata : Word)
  /-- WR.EV_ENABLE, offset 0x18 (R85) -/
  | wrEvEnable (wdata : Word)
  /-- WR.UNMAPPED.1C, offset 0x1c (R86) -/
  | wrUnmapped1C (wdata : Word)
  /-- WR.UNMAPPED.20, offsets 0x20 to 0x3c in steps of 4 (R86) -/
  | wrUnmapped20 (off : Offset) (wdata : Word)
  /-- WR.UNMAPPED.40, offsets 0x40 to 0x7c in steps of 4 (R86) -/
  | wrUnmapped40 (off : Offset) (wdata : Word)
  /-- WR.UNMAPPED.80, offsets 0x80 to 0xfc in steps of 4 (R86) -/
  | wrUnmapped80 (off : Offset) (wdata : Word)
  /-- WR.MISALIGNED.ODD, every odd offset (R87) -/
  | wrMisalignedOdd (off : Offset) (wdata : Word)
  /-- WR.MISALIGNED.HALF, every offset that is 2 modulo 4 (R87) -/
  | wrMisalignedHalf (off : Offset) (wdata : Word)
  deriving DecidableEq, Repr

/-- Is the transaction a read (R57: `W` = 0)? -/
def Instr.isRead : Instr → Bool
  | .rdTx | .rdRx | .rdControl | .rdStatus | .rdEvStatus | .rdEvPending | .rdEvEnable => true
  | .rdUnmapped1C | .rdUnmapped20 _ | .rdUnmapped40 _ | .rdUnmapped80 _ => true
  | .rdMisalignedOdd _ | .rdMisalignedHalf _ => true
  | .wrTx _ | .wrRx _ | .wrControl _ | .wrStatus _ | .wrEvStatus _ | .wrEvPending _ | .wrEvEnable _ => false
  | .wrUnmapped1C _ | .wrUnmapped20 _ _ | .wrUnmapped40 _ _ | .wrUnmapped80 _ _ => false
  | .wrMisalignedOdd _ _ | .wrMisalignedHalf _ _ => false

end Sys2Proof
end

