-- ==== Sys2Proof/WellFormed.lean ====
section
/-! DEFINITION. Which terms of `Instr` are transactions of the opcode map: the offset a term carries lies in its row's
class (R38, R62: `w & mask == match`, taken on the eight bits of the offset). -/

namespace Sys2Proof

/-- The offsets of the rows UNMAPPED.20: 0x20 to 0x3c in steps of 4 (R62). -/
def offsetIn20 (off : Offset) : Bool := off &&& 0xE3 == 0x20

/-- The offsets of the rows UNMAPPED.40: 0x40 to 0x7c in steps of 4 (R62). -/
def offsetIn40 (off : Offset) : Bool := off &&& 0xC3 == 0x40

/-- The offsets of the rows UNMAPPED.80: 0x80 to 0xfc in steps of 4 (R62). -/
def offsetIn80 (off : Offset) : Bool := off &&& 0x83 == 0x80

/-- The odd offsets (R62, rows MISALIGNED.ODD). -/
def offsetOdd (off : Offset) : Bool := off &&& 0x01 == 0x01

/-- The offsets that are 2 modulo 4 (R62, rows MISALIGNED.HALF). -/
def offsetHalf (off : Offset) : Bool := off &&& 0x03 == 0x02

/-- The check of one term: its offset is one of its row's. -/
def Instr.wf : Instr → Bool
  | .rdTx | .rdRx | .rdControl | .rdStatus | .rdEvStatus | .rdEvPending | .rdEvEnable | .rdUnmapped1C => true
  | .rdUnmapped20 off => offsetIn20 off
  | .rdUnmapped40 off => offsetIn40 off
  | .rdUnmapped80 off => offsetIn80 off
  | .rdMisalignedOdd off => offsetOdd off
  | .rdMisalignedHalf off => offsetHalf off
  | .wrTx _ | .wrRx _ | .wrControl _ | .wrStatus _ | .wrEvStatus _ | .wrEvPending _ | .wrEvEnable _ => true
  | .wrUnmapped1C _ => true
  | .wrUnmapped20 off _ => offsetIn20 off
  | .wrUnmapped40 off _ => offsetIn40 off
  | .wrUnmapped80 off _ => offsetIn80 off
  | .wrMisalignedOdd off _ => offsetOdd off
  | .wrMisalignedHalf off _ => offsetHalf off

/-- The transaction is one of the opcode map. -/
abbrev Instr.WellFormed (i : Instr) : Prop := i.wf = true

end Sys2Proof
end

