-- ==== Sys2Proof/Decode.lean ====
section
/-! DEFINITION. Decoding a bus access into a transaction (R57, R58), the opcode map as data (R62), and the encoder. -/

namespace Sys2Proof

/-! ### The request word -/

/-- `req[8]`: 0 = read, 1 = write (R57). -/
def reqIsWrite (req : ReqWord) : Bool := req.getLsbD 8

/-- `req[7:0]`: the byte offset (R57). -/
def reqOffset (req : ReqWord) : Offset := req.setWidth 8

/-- The packing of direction and offset into a request word (R57, D2). -/
def reqWord (isWrite : Bool) (off : Offset) : ReqWord := BitVec.ofBool isWrite ++ off

/-! ### Decode -/

/-- Decode of a read: the seven mapped offsets exactly, then the class of any other offset (R38, R58). -/
def decodeRead (off : Offset) : Instr :=
  if off = 0x00 then .rdTx
  else if off = 0x04 then .rdRx
  else if off = 0x08 then .rdControl
  else if off = 0x0C then .rdStatus
  else if off = 0x10 then .rdEvStatus
  else if off = 0x14 then .rdEvPending
  else if off = 0x18 then .rdEvEnable
  else if off.getLsbD 0 then .rdMisalignedOdd off
  else if off.getLsbD 1 then .rdMisalignedHalf off
  else if off.getLsbD 7 then .rdUnmapped80 off
  else if off.getLsbD 6 then .rdUnmapped40 off
  else if off.getLsbD 5 then .rdUnmapped20 off
  else .rdUnmapped1C

/-- Decode of a write (R38, R58). -/
def decodeWrite (off : Offset) (wdata : Word) : Instr :=
  if off = 0x00 then .wrTx wdata
  else if off = 0x04 then .wrRx wdata
  else if off = 0x08 then .wrControl wdata
  else if off = 0x0C then .wrStatus wdata
  else if off = 0x10 then .wrEvStatus wdata
  else if off = 0x14 then .wrEvPending wdata
  else if off = 0x18 then .wrEvEnable wdata
  else if off.getLsbD 0 then .wrMisalignedOdd off wdata
  else if off.getLsbD 1 then .wrMisalignedHalf off wdata
  else if off.getLsbD 7 then .wrUnmapped80 off wdata
  else if off.getLsbD 6 then .wrUnmapped40 off wdata
  else if off.getLsbD 5 then .wrUnmapped20 off wdata
  else .wrUnmapped1C wdata

/-- Decode of a request word with its operand: total, every one of the 512 words names a transaction (R58, R64). A read
has no operand, so `wdata` is not looked at there (R57). -/
def decodeWord (req : ReqWord) (wdata : Word) : Instr :=
  if reqIsWrite req then decodeWrite (reqOffset req) wdata else decodeRead (reqOffset req)

/-! ### Accesses as a bus delivers them -/

/-- An access as the bus attachment hands it over: direction, byte offset from the window's base, width in bytes, and
the write data (R56; for a read `wdata` is ignored). `offset` and `bytes` are plain numbers so that an access the
block's interface does not have can be written down, and refused (R40, R43). -/
structure BusRequest where
  isWrite : Bool
  offset : Nat
  bytes : Nat
  wdata : Word
  deriving DecidableEq, Repr

/-- Why an access is no transaction of the block. -/
inductive DecodeError where
  /-- the access does not move exactly 32 bits (R43, D4) -/
  | notDoubleWord
  /-- the offset is 0x100 or above (R40, D20) -/
  | offsetOutsideWindow
  deriving DecidableEq, Repr

/-- Decode of an access, total, refusing by name what is no access of the block (R40, R43). DESIGN CHOICE (log 11,
safe): an access wrong in both ways is refused for its width. -/
def decode (r : BusRequest) : Except DecodeError Instr :=
  if r.bytes ≠ 4 then .error .notDoubleWord
  else if 256 ≤ r.offset then .error .offsetOutsideWindow
  else .ok (decodeWord (reqWord r.isWrite (BitVec.ofNat 8 r.offset)) r.wdata)

/-! ### The opcode map of R62, as data -/

/-- One row of R62: its mnemonic, its match and mask over the 9-bit request word, and the transaction a word of the row
stands for. -/
structure OpcodeRow where
  mnemonic : String
  pattern : ReqWord
  mask : ReqWord
  build : Offset → Word → Instr

/-- A word selects the row when `w & mask == match` (R62). -/
def OpcodeRow.selects (row : OpcodeRow) (req : ReqWord) : Bool := req &&& row.mask == row.pattern

/-- The rows of the read transactions (R62). -/
def readRows : List OpcodeRow :=
  [ ⟨"RD.TX", 0x000, 0x1FF, fun _ _ => .rdTx⟩,
    ⟨"RD.RX", 0x004, 0x1FF, fun _ _ => .rdRx⟩,
    ⟨"RD.CONTROL", 0x008, 0x1FF, fun _ _ => .rdControl⟩,
    ⟨"RD.STATUS", 0x00C, 0x1FF, fun _ _ => .rdStatus⟩,
    ⟨"RD.EV_STATUS", 0x010, 0x1FF, fun _ _ => .rdEvStatus⟩,
    ⟨"RD.EV_PENDING", 0x014, 0x1FF, fun _ _ => .rdEvPending⟩,
    ⟨"RD.EV_ENABLE", 0x018, 0x1FF, fun _ _ => .rdEvEnable⟩,
    ⟨"RD.UNMAPPED.1C", 0x01C, 0x1FF, fun _ _ => .rdUnmapped1C⟩,
    ⟨"RD.UNMAPPED.20", 0x020, 0x1E3, fun off _ => .rdUnmapped20 off⟩,
    ⟨"RD.UNMAPPED.40", 0x040, 0x1C3, fun off _ => .rdUnmapped40 off⟩,
    ⟨"RD.UNMAPPED.80", 0x080, 0x183, fun off _ => .rdUnmapped80 off⟩,
    ⟨"RD.MISALIGNED.ODD", 0x001, 0x101, fun off _ => .rdMisalignedOdd off⟩,
    ⟨"RD.MISALIGNED.HALF", 0x002, 0x103, fun off _ => .rdMisalignedHalf off⟩ ]

/-- The rows of the write transactions (R62). -/
def writeRows : List OpcodeRow :=
  [ ⟨"WR.TX", 0x100, 0x1FF, fun _ w => .wrTx w⟩,
    ⟨"WR.RX", 0x104, 0x1FF, fun _ w => .wrRx w⟩,
    ⟨"WR.CONTROL", 0x108, 0x1FF, fun _ w => .wrControl w⟩,
    ⟨"WR.STATUS", 0x10C, 0x1FF, fun _ w => .wrStatus w⟩,
    ⟨"WR.EV_STATUS", 0x110, 0x1FF, fun _ w => .wrEvStatus w⟩,
    ⟨"WR.EV_PENDING", 0x114, 0x1FF, fun _ w => .wrEvPending w⟩,
    ⟨"WR.EV_ENABLE", 0x118, 0x1FF, fun _ w => .wrEvEnable w⟩,
    ⟨"WR.UNMAPPED.1C", 0x11C, 0x1FF, fun _ w => .wrUnmapped1C w⟩,
    ⟨"WR.UNMAPPED.20", 0x120, 0x1E3, fun off w => .wrUnmapped20 off w⟩,
    ⟨"WR.UNMAPPED.40", 0x140, 0x1C3, fun off w => .wrUnmapped40 off w⟩,
    ⟨"WR.UNMAPPED.80", 0x180, 0x183, fun off w => .wrUnmapped80 off w⟩,
    ⟨"WR.MISALIGNED.ODD", 0x101, 0x101, fun off w => .wrMisalignedOdd off w⟩,
    ⟨"WR.MISALIGNED.HALF", 0x102, 0x103, fun off w => .wrMisalignedHalf off w⟩ ]

/-- The opcode map (R62). -/
def opcodeTable : List OpcodeRow := readRows ++ writeRows

/-! ### The encoder -/

/-- The offset a transaction is issued at (R62). -/
def encodeOffset : Instr → Offset
  | .rdTx | .wrTx _ => 0x00
  | .rdRx | .wrRx _ => 0x04
  | .rdControl | .wrControl _ => 0x08
  | .rdStatus | .wrStatus _ => 0x0C
  | .rdEvStatus | .wrEvStatus _ => 0x10
  | .rdEvPending | .wrEvPending _ => 0x14
  | .rdEvEnable | .wrEvEnable _ => 0x18
  | .rdUnmapped1C | .wrUnmapped1C _ => 0x1C
  | .rdUnmapped20 off | .wrUnmapped20 off _ => off
  | .rdUnmapped40 off | .wrUnmapped40 off _ => off
  | .rdUnmapped80 off | .wrUnmapped80 off _ => off
  | .rdMisalignedOdd off | .wrMisalignedOdd off _ => off
  | .rdMisalignedHalf off | .wrMisalignedHalf off _ => off

/-- The operand of a write; a read has none, and 0 stands for it (R57). -/
def encodeData : Instr → Word
  | .rdTx | .rdRx | .rdControl | .rdStatus | .rdEvStatus | .rdEvPending | .rdEvEnable => 0
  | .rdUnmapped1C | .rdUnmapped20 _ | .rdUnmapped40 _ | .rdUnmapped80 _ => 0
  | .rdMisalignedOdd _ | .rdMisalignedHalf _ => 0
  | .wrTx w | .wrRx w | .wrControl w | .wrStatus w | .wrEvStatus w | .wrEvPending w | .wrEvEnable w => w
  | .wrUnmapped1C w | .wrUnmapped20 _ w | .wrUnmapped40 _ w | .wrUnmapped80 _ w => w
  | .wrMisalignedOdd _ w | .wrMisalignedHalf _ w => w

/-- The request word of a transaction (R57, R62). -/
def encodeReq (i : Instr) : ReqWord := reqWord (!i.isRead) (encodeOffset i)

/-- The access a bus master issues for a transaction (R56, R57). -/
def encode (i : Instr) : BusRequest :=
  { isWrite := !i.isRead, offset := (encodeOffset i).toNat, bytes := 4, wdata := encodeData i }

/-! ### The host's numbering of a table word -/

/-- The access whose request word has the bits of `w`, as spec/opcode_table.json numbers them, with an operand word of
zeros: bit 8 is `W`, bits 7..0 the offset. Bits above bit 8, which no request word has, are read as offset bits above
the window, so such a number is refused (R40). -/
def BusRequest.ofTableWord (w : Nat) : BusRequest :=
  { isWrite := w / 256 % 2 == 1, offset := w % 256 + 256 * (w / 512), bytes := 4, wdata := 0 }

/-- What the decoder reads from a word of spec/opcode_table.json; none where it refuses. -/
def decodeTableWord (_nbits w : Nat) : Option Instr :=
  match decode (BusRequest.ofTableWord w) with
  | .ok i => some i
  | .error _ => none

end Sys2Proof
end

