-- ==== Sys2Proof/Machine/State.lean ====
section
/-! DEFINITION. The state of the block and of the environment the spec gives it (R12 to R35, R88, R104), as plain data,
and the state after construction and reset (R115, R117). -/

namespace Sys2Proof.Machine

/-- The block's own state, the record of R16: "exactly" these nine fields (R12). TX, Tip, Hold and the IRQ line are not
stored (R19, R21, R22, R26). -/
structure ComState where
  /-- ComControl bit 0 (R17) -/
  intEna : Bool
  /-- ComControl bit 1, inert storage (R18) -/
  autoHold : Bool
  /-- ComRx bits 15:0 (R20) -/
  rx : Half
  /-- ComEvStatus bit 0 (R23) -/
  intStatus : Bool
  /-- ComEvStatus bit 1 (R24) -/
  holdStatus : Bool
  /-- ComEvPending bit 0 (R25) -/
  intPending : Bool
  /-- ComEvPending bit 1 (R25) -/
  holdPending : Bool
  /-- ComEvEnable bit 0 (R26) -/
  intEnable : Bool
  /-- ComEvEnable bit 1 (R26) -/
  holdEnable : Bool
  deriving DecidableEq, Repr

/-- A transfer peripheral that can be attached (R34, R68, R88). DESIGN CHOICE (log 7, safe): the three ways the spec
speaks of replies, in two constructors. -/
inductive Peripheral where
  /-- replies to byte `b` with `b` (R68, D11) -/
  | echo
  /-- a named peripheral: it gives the replies a program states, oldest first, and then free values (R68, R88, D11) -/
  | device (name : Nat) (stated : List Byte)
  deriving DecidableEq, Repr

/-- One call of `Transmit`: "recorded as an event (sent byte, reply byte)" (R88). -/
structure Transfer where
  sent : Byte
  reply : Byte
  deriving DecidableEq, Repr

/-- The error kinds of the block (R105, R106: there is one). -/
inductive ConfigError where
  /-- a ComTx write with no transfer peripheral attached (R93, R104) -/
  | unattachedTransferTarget
  deriving DecidableEq, Repr

/-- What a ConfigError records: the error and the access that raised it (R104). -/
structure FaultRecord where
  error : ConfigError
  req : ReqWord
  wdata : Word
  deriving DecidableEq, Repr

/-- What the bus port answered in the last step (R56, D1). The model's own field (log 3). -/
inductive Answer where
  /-- nothing: no access was made (construction, reset, a host action; R112) -/
  | silent
  /-- the data of a read (R56) -/
  | rdata (value : Word)
  /-- a write was done; it returns nothing (R56) -/
  | done
  /-- a write ended in a configuration error (R56, R104) -/
  | configError (error : ConfigError)
  deriving DecidableEq, Repr

/-- What the agents around the block do, one step each (R11, R112). -/
inductive Input where
  /-- a bus access at an offset of the window (R56) -/
  | bus (request : BusRequest)
  /-- a bus access at an address of the system bus, which `COM_BASE` places (R10, R37) -/
  | mem (isWrite : Bool) (addr bytes : Nat) (wdata : Word)
  /-- the reset lifecycle input (R116) -/
  | reset
  /-- attach a transfer peripheral, or replace the one attached (R112) -/
  | attach (p : Peripheral)
  /-- detach the transfer peripheral (R112) -/
  | detach
  deriving DecidableEq, Repr

/-- The machine: the block, the environment state it reads, and the model's own record of inputs and outputs. -/
structure State where
  /-- the block's own state (R16) -/
  com : ComState
  /-- the attached transfer peripheral, or none (R34) -/
  xfer : Option Peripheral
  /-- every transfer made, oldest first (R88) -/
  transfers : List Transfer
  /-- how many free replies have been drawn (R88, D11; log 6) -/
  draws : Nat
  /-- the inputs delivered and not yet taken, oldest first (R50; log 1) -/
  inbox : List Input
  /-- what the bus port answered in the last step (R56; log 3) -/
  answer : Answer
  /-- the recorded ConfigError, never cleared (R104) -/
  faulted : Option FaultRecord
  deriving DecidableEq, Repr

/-- The faults a step can end in. -/
inductive Fault where
  /-- Raised by `step` alone, in a state in which a ConfigError is recorded: the error is fatal and nothing after it is
  run (R104, R105; 95_test_vectors P4). The access that raises it is a next state that records it. Safe: the machine
  stops where the spec runs nothing (log 9). -/
  | configError (record : FaultRecord)
  deriving DecidableEq, Repr

/-- The refusals of a step. -/
inductive Refusal where
  /-- Raised by an arm of `exec` whose instruction has no meaning yet; no arm does. Safe. -/
  | notModelled (mnemonic : String)
  /-- Raised when an access that does not move exactly 32 bits is delivered: no access of the block (R43, D4). One below
  `COM_BASE` is `outsideWindow` instead (log 21). Safe. -/
  | notDoubleWord
  /-- Raised when an access outside the 256-byte window is delivered: it never reaches the block (R40, D20). Below
  `COM_BASE` it is raised whatever the width (log 21), beyond the window for a 32-bit access (log 11). Safe. -/
  | outsideWindow
  deriving DecidableEq, Repr

/-- What a step answers. -/
abbrev Result := Host.Outcome State Fault Refusal

/-- Every stored field at construction: 0 (R115; decided by the spec's D8, log 4). -/
def ComState.construct : ComState :=
  { intEna := false, autoHold := false, rx := 0, intStatus := false, holdStatus := false, intPending := false,
    holdPending := false, intEnable := false, holdEnable := false }

/-- The machine at construction, with the transfer attachment as an argument (R115, D18). -/
def State.construct (x : Option Peripheral) : State :=
  { com := ComState.construct, xfer := x, transfers := [], draws := 0, inbox := [], answer := .silent, faulted := none }

/-- The machine right after construction and reset. reset() leaves `intEna`, `autoHold` and `rx` as they were (R117), so
they hold their construction values (log 4). DESIGN CHOICE (log 5): nothing is attached. -/
def State.reset : State := State.construct none

end Sys2Proof.Machine
end

