-- ==== Sys2Proof/Machine/Flags.lean ====
section
/-! DEFINITION. The event flags and the Interrupt Aggregator (R23 to R26, R96 to R101): the output line as a function of
the state, `Recompute()` as a state update (R100 keeps the two apart), the pulse of a ComTx write, and the field modes. -/

namespace Sys2Proof.Machine

/-- The IRQ output, a function of the state and never stored (R26, R99; `Recompute()` step 3, R97). -/
def ComState.irq (c : ComState) : Bool := (c.intPending && c.intEnable) || (c.holdPending && c.holdEnable)

/-- The level the interrupt controller observes (R99, R112). -/
def irqLine (s : State) : Bool := s.com.irq

/-- `Recompute()` step 1 (R97). -/
def latchInt (c : ComState) : ComState := if c.intStatus then { c with intPending := true } else c

/-- `Recompute()` step 2 (R97). -/
def latchHold (c : ComState) : ComState := if c.holdStatus then { c with holdPending := true } else c

/-- `Recompute()`: steps 1 and 2 in order; step 3 is `ComState.irq` (R97, R99, R100). -/
def recompute (c : ComState) : ComState := latchHold (latchInt c)

/-- The first micro-step of the pulse: `int_status <- 1` (R89, R92). -/
def raiseInt (c : ComState) : ComState := { c with intStatus := true }

/-- The last micro-step of the pulse: `int_status <- 0` (R89, R92). -/
def dropInt (c : ComState) : ComState := { c with intStatus := false }

/-- The pulse of a ComTx write: three micro-steps, kept separate as R92 asks; run when `int_ena` = 1 (R89). -/
def pulse (c : ComState) : ComState := if c.intEna then dropInt (recompute (raiseInt c)) else c

/-- The access modes of a stored bit (R29). -/
inductive FieldMode where
  /-- read-only: a bus write leaves the bit (R29, D10) -/
  | readOnly
  /-- r/w: a bus write stores the written bit -/
  | readWrite
  /-- r/w, write-1-to-clear: a written 1 clears the bit, a written 0 leaves it -/
  | writeOneToClear
  deriving DecidableEq, Repr

/-- What a stored bit holds after a bus write of `written` (R29). -/
def storeBit (mode : FieldMode) (stored written : Bool) : Bool :=
  match mode with
  | .readOnly => stored
  | .readWrite => written
  | .writeOneToClear => stored && !written

/-- The fields of ComControl after a write (R27, R81). -/
def storeControl (wdata : Word) (c : ComState) : ComState :=
  { c with
    intEna := storeBit .readWrite c.intEna (bit0 wdata)
    autoHold := storeBit .readWrite c.autoHold (bit1 wdata) }

/-- The fields of ComEvStatus after a write: read-only (R27, R83). -/
def storeEvStatus (wdata : Word) (c : ComState) : ComState :=
  { c with
    intStatus := storeBit .readOnly c.intStatus (bit0 wdata)
    holdStatus := storeBit .readOnly c.holdStatus (bit1 wdata) }

/-- The fields of ComEvPending after a write, before `Recompute()`: write-one-to-clear (R27, R84). -/
def storeEvPending (wdata : Word) (c : ComState) : ComState :=
  { c with
    intPending := storeBit .writeOneToClear c.intPending (bit0 wdata)
    holdPending := storeBit .writeOneToClear c.holdPending (bit1 wdata) }

/-- The fields of ComEvEnable after a write, before `Recompute()` (R27, R85). -/
def storeEvEnable (wdata : Word) (c : ComState) : ComState :=
  { c with
    intEnable := storeBit .readWrite c.intEnable (bit0 wdata)
    holdEnable := storeBit .readWrite c.holdEnable (bit1 wdata) }

end Sys2Proof.Machine
end

