-- ==== Sys2Proof/Machine/Ops.lean ====
section
/-! DEFINITION. The named operations every meaning is made of: composing a register's read image, answering the bus
port, calling the transfer peripheral, and raising a configuration error. The block has no memory and no other storage
than `ComState` (R12), takes no trap and returns from none (R108, R109). -/

namespace Sys2Proof.Machine

/-! ### The register map -/

/-- The seven registers (R27). -/
inductive Reg where
  | tx | rx | control | status | evStatus | evPending | evEnable
  deriving DecidableEq, Repr

/-- Tip, ComStatus bit 0: no logic is wired (R21). -/
def tipBit : Bool := false

/-- Hold, ComStatus bit 1: no sensing is wired (R22). -/
def holdBit : Bool := false

/-- The composed 32-bit value a read of a register returns (R61). ComTx is write-only and reads 0 (R19, R29). -/
def regImage (r : Reg) (c : ComState) : Word :=
  match r with
  | .tx => 0
  | .rx => zext32 c.rx
  | .control => pair c.autoHold c.intEna
  | .status => pair holdBit tipBit
  | .evStatus => pair c.holdStatus c.intStatus
  | .evPending => pair c.holdPending c.intPending
  | .evEnable => pair c.holdEnable c.intEnable

/-- What a read of an offset that names no register returns (R39, R61). -/
def unmappedImage : Word := 0

/-! ### The bus port -/

/-- A read answers its data and changes nothing else (R69). -/
def answerRead (value : Word) (s : State) : Result := .next { s with answer := .rdata value }

/-- A write leaves the block in `c` and answers nothing but that it is done (R56). -/
def answerWrite (c : ComState) (s : State) : Result := .next { s with com := c, answer := .done }

/-- A write that has no effect and reports nothing (R39, R126). -/
def ignoreWrite (s : State) : Result := answerWrite s.com s

/-! ### The transfer port -/

/-- The peripheral's reply to one byte, for draw number `draw` (R88, D11). -/
def replyOf (p : Peripheral) (draw : Nat) (sent : Byte) : Byte :=
  match p with
  | .echo => sent
  | .device _ (r :: _) => r
  | .device name [] => Config.transmitReply name draw sent

/-- The peripheral after one call: a stated reply is used up. -/
def afterCall (p : Peripheral) : Peripheral :=
  match p with
  | .echo => .echo
  | .device name (_ :: rest) => .device name rest
  | .device name [] => .device name []

/-- The number of free replies one call draws. -/
def drawsOf (p : Peripheral) : Nat :=
  match p with
  | .echo => 0
  | .device _ (_ :: _) => 0
  | .device _ [] => 1

/-- `Transmit(p, b)`: one call to the attached peripheral. It always returns, within the access (R88, D12), and is
recorded in the history. The reply is read off the state before with `replyOf`. -/
def transmit (p : Peripheral) (b : Byte) (s : State) : State :=
  { s with
    xfer := some (afterCall p)
    transfers := s.transfers ++ [{ sent := b, reply := replyOf p s.draws b }]
    draws := s.draws + drawsOf p }

/-! ### Raising a configuration error -/

/-- The numeric code of an error (R105, D17). -/
def ConfigError.code (e : ConfigError) : Nat :=
  match e with
  | .unattachedTransferTarget => 1

/-- `raise ConfigError`: the error and the access are recorded and the error is the access's answer; no field of the
block, no transfer and no attachment changes (R93, R104, D9). -/
def raiseConfigError (error : ConfigError) (req : ReqWord) (wdata : Word) (s : State) : Result :=
  .next { s with answer := .configError error, faulted := some { error := error, req := req, wdata := wdata } }

end Sys2Proof.Machine
end

