-- ==== Sys2Proof/Machine/Reads.lean ====
section
/-! DEFINITION. The meanings of the read transactions (R69 to R78). -/

namespace Sys2Proof.Machine

/-- RD.TX (R70). -/
def execRdTx (s : State) : Result := answerRead (regImage .tx s.com) s

/-- RD.RX (R71). -/
def execRdRx (s : State) : Result := answerRead (regImage .rx s.com) s

/-- RD.CONTROL (R72). -/
def execRdControl (s : State) : Result := answerRead (regImage .control s.com) s

/-- RD.STATUS (R73). -/
def execRdStatus (s : State) : Result := answerRead (regImage .status s.com) s

/-- RD.EV_STATUS: composed from the fields, not a constant (R74). -/
def execRdEvStatus (s : State) : Result := answerRead (regImage .evStatus s.com) s

/-- RD.EV_PENDING: reading does not acknowledge (R75). -/
def execRdEvPending (s : State) : Result := answerRead (regImage .evPending s.com) s

/-- RD.EV_ENABLE (R76). -/
def execRdEvEnable (s : State) : Result := answerRead (regImage .evEnable s.com) s

/-- RD.UNMAPPED.1C (R77). -/
def execRdUnmapped1C (s : State) : Result := answerRead unmappedImage s

/-- RD.UNMAPPED.20: the result does not depend on the offset (R77). -/
def execRdUnmapped20 (_off : Offset) (s : State) : Result := answerRead unmappedImage s

/-- RD.UNMAPPED.40 (R77). -/
def execRdUnmapped40 (_off : Offset) (s : State) : Result := answerRead unmappedImage s

/-- RD.UNMAPPED.80 (R77). -/
def execRdUnmapped80 (_off : Offset) (s : State) : Result := answerRead unmappedImage s

/-- RD.MISALIGNED.ODD: as an unmapped offset (R78, D3; log 10). -/
def execRdMisalignedOdd (_off : Offset) (s : State) : Result := answerRead unmappedImage s

/-- RD.MISALIGNED.HALF: as an unmapped offset (R78, D3; log 10). -/
def execRdMisalignedHalf (_off : Offset) (s : State) : Result := answerRead unmappedImage s

end Sys2Proof.Machine
end

