-- ==== Sys2Proof/Machine/Transmit.lean ====
section
/-! DEFINITION. The meaning of WR.TX, the block's only operation with an external effect (R88 to R95). -/

namespace Sys2Proof.Machine

/-- WR.TX with `p` attached: the low byte is sent, then the high byte, to the peripheral as the first call left it; the
replies become `rx`; then the pulse, if `int_ena` = 1 (R89 to R92). -/
def sendBoth (p : Peripheral) (wdata : Word) (s : State) : Result :=
  let first := replyOf p s.draws (txLo wdata)
  let s₁ := transmit p (txLo wdata) s
  let second := replyOf (afterCall p) s₁.draws (txHi wdata)
  let s₂ := transmit (afterCall p) (txHi wdata) s₁
  answerWrite (pulse { s₂.com with rx := assembleRx first second }) s₂

/-- WR.TX: with nothing attached a configuration error, otherwise both bytes are sent (R89, R93). -/
def execWrTx (wdata : Word) (s : State) : Result :=
  match s.xfer with
  | none => raiseConfigError .unattachedTransferTarget (encodeReq (.wrTx wdata)) wdata s
  | some p => sendBoth p wdata s

end Sys2Proof.Machine
end

