-- ==== Sys2Proof/Machine/Writes.lean ====
section
/-! DEFINITION. The meanings of the write transactions other than ComTx (R79 to R87). -/

namespace Sys2Proof.Machine

/-- WR.RX: `rx` is read-only; no error (R80, D10; log 12). -/
def execWrRx (_wdata : Word) (s : State) : Result := ignoreWrite s

/-- WR.CONTROL: no `Recompute()` runs (R81). -/
def execWrControl (wdata : Word) (s : State) : Result := answerWrite (storeControl wdata s.com) s

/-- WR.STATUS: Tip and Hold are read-only constants (R82, D10; log 12). -/
def execWrStatus (_wdata : Word) (s : State) : Result := ignoreWrite s

/-- WR.EV_STATUS: the status bits are read-only; no event and no `Recompute()` (R83, D10; log 12). -/
def execWrEvStatus (wdata : Word) (s : State) : Result := answerWrite (storeEvStatus wdata s.com) s

/-- WR.EV_PENDING: acknowledge, then `Recompute()` after every such write (R84, D19; log 13). -/
def execWrEvPending (wdata : Word) (s : State) : Result :=
  answerWrite (recompute (storeEvPending wdata s.com)) s

/-- WR.EV_ENABLE: store the enables, then `Recompute()` after every such write (R85, D19; log 13). -/
def execWrEvEnable (wdata : Word) (s : State) : Result :=
  answerWrite (recompute (storeEvEnable wdata s.com)) s

/-- WR.UNMAPPED.1C (R86). -/
def execWrUnmapped1C (_wdata : Word) (s : State) : Result := ignoreWrite s

/-- WR.UNMAPPED.20 (R86). -/
def execWrUnmapped20 (_off : Offset) (_wdata : Word) (s : State) : Result := ignoreWrite s

/-- WR.UNMAPPED.40 (R86). -/
def execWrUnmapped40 (_off : Offset) (_wdata : Word) (s : State) : Result := ignoreWrite s

/-- WR.UNMAPPED.80 (R86). -/
def execWrUnmapped80 (_off : Offset) (_wdata : Word) (s : State) : Result := ignoreWrite s

/-- WR.MISALIGNED.ODD: as an unmapped offset (R87, D3; log 10). -/
def execWrMisalignedOdd (_off : Offset) (_wdata : Word) (s : State) : Result := ignoreWrite s

/-- WR.MISALIGNED.HALF: as an unmapped offset (R87, D3; log 10). -/
def execWrMisalignedHalf (_off : Offset) (_wdata : Word) (s : State) : Result := ignoreWrite s

end Sys2Proof.Machine
end

