-- ==== Sys2Proof/Machine/Dispatch.lean ====
section
/-! DEFINITION. The meaning of a transaction, one arm for each constructor of Instr. -/

namespace Sys2Proof.Machine

/-- What a transaction does to the machine (R58: exactly one rule applies). -/
def exec (i : Instr) (s : State) : Host.Outcome State Fault Refusal :=
  match i with
  | .rdTx => Sys2Proof.Machine.execRdTx s
  | .rdRx => Sys2Proof.Machine.execRdRx s
  | .rdControl => Sys2Proof.Machine.execRdControl s
  | .rdStatus => Sys2Proof.Machine.execRdStatus s
  | .rdEvStatus => Sys2Proof.Machine.execRdEvStatus s
  | .rdEvPending => Sys2Proof.Machine.execRdEvPending s
  | .rdEvEnable => Sys2Proof.Machine.execRdEvEnable s
  | .rdUnmapped1C => Sys2Proof.Machine.execRdUnmapped1C s
  | .rdUnmapped20 off => Sys2Proof.Machine.execRdUnmapped20 off s
  | .rdUnmapped40 off => Sys2Proof.Machine.execRdUnmapped40 off s
  | .rdUnmapped80 off => Sys2Proof.Machine.execRdUnmapped80 off s
  | .rdMisalignedOdd off => Sys2Proof.Machine.execRdMisalignedOdd off s
  | .rdMisalignedHalf off => Sys2Proof.Machine.execRdMisalignedHalf off s
  | .wrTx wdata => Sys2Proof.Machine.execWrTx wdata s
  | .wrRx wdata => Sys2Proof.Machine.execWrRx wdata s
  | .wrControl wdata => Sys2Proof.Machine.execWrControl wdata s
  | .wrStatus wdata => Sys2Proof.Machine.execWrStatus wdata s
  | .wrEvStatus wdata => Sys2Proof.Machine.execWrEvStatus wdata s
  | .wrEvPending wdata => Sys2Proof.Machine.execWrEvPending wdata s
  | .wrEvEnable wdata => Sys2Proof.Machine.execWrEvEnable wdata s
  | .wrUnmapped1C wdata => Sys2Proof.Machine.execWrUnmapped1C wdata s
  | .wrUnmapped20 off wdata => Sys2Proof.Machine.execWrUnmapped20 off wdata s
  | .wrUnmapped40 off wdata => Sys2Proof.Machine.execWrUnmapped40 off wdata s
  | .wrUnmapped80 off wdata => Sys2Proof.Machine.execWrUnmapped80 off wdata s
  | .wrMisalignedOdd off wdata => Sys2Proof.Machine.execWrMisalignedOdd off wdata s
  | .wrMisalignedHalf off wdata => Sys2Proof.Machine.execWrMisalignedHalf off wdata s

end Sys2Proof.Machine
end

