-- ==== Sys2Proof/Machine/Lifecycle.lean ====
section
/-! DEFINITION. The steps that are no bus access: the reset lifecycle input (R116 to R120) and the host's actions on the
transfer attachment (R112). None has a request word (R68). -/

namespace Sys2Proof.Machine

/-- reset() on the block: it zeroes the six event fields and leaves `int_ena`, `auto_hold` and `rx`; the asymmetry is
normative (R117, R119; log 24). -/
def resetFields (c : ComState) : ComState :=
  { c with
    intStatus := false, holdStatus := false, intPending := false, holdPending := false, intEnable := false,
    holdEnable := false }

/-- The reset step: it issues no transfer, does not change the attachment and gives nothing back (R112, R117, R120). -/
def applyReset (s : State) : State := { s with com := resetFields s.com, answer := .silent }

/-- Attach a transfer peripheral, replacing one already attached: only `xfer` changes (R112, D18). -/
def applyAttach (p : Peripheral) (s : State) : State := { s with xfer := some p, answer := .silent }

/-- Detach the transfer peripheral: only `xfer` changes (R112, D18). -/
def applyDetach (s : State) : State := { s with xfer := none, answer := .silent }

end Sys2Proof.Machine
end

