-- ==== Sys2Proof/Machine/Bus.lean ====
section
/-! DEFINITION. Delivering an input to the machine: a bus access is decoded and executed or refused (R38, R40, R43), an
access of the system bus is first placed by `COM_BASE` (R10, R37), and the lifecycle inputs are applied (R112). -/

namespace Sys2Proof.Machine

/-- The refusal of an access that is no access of the block (R40, R43). -/
def refusalOf (e : DecodeError) : Refusal :=
  match e with
  | .notDoubleWord => .notDoubleWord
  | .offsetOutsideWindow => .outsideWindow

/-- A bus access, run to completion in one step (R46). -/
def runRequest (r : BusRequest) (s : State) : Result :=
  match decode r with
  | .ok i => exec i s
  | .error e => .refused (refusalOf e)

/-- The window access that an access of the system bus at `addr` is: `MemRead(COM_BASE + off, 4)` is `BusRead(off)`
(R10, R37). An address below the window is none. -/
def windowAccess (isWrite : Bool) (addr bytes : Nat) (wdata : Word) : Option BusRequest :=
  if addr < Config.comBase then none
  else some { isWrite := isWrite, offset := addr - Config.comBase, bytes := bytes, wdata := wdata }

/-- One access of the system bus (R10, R37, R40). It is placed before its width is looked at. DESIGN CHOICE (log 21,
safe): an access below `COM_BASE` that is not 32 bits wide either is refused as outside the window; the spec gives no
order. One at or beyond the base is judged by `decode`, its width first (log 11). -/
def runMem (isWrite : Bool) (addr bytes : Nat) (wdata : Word) (s : State) : Result :=
  match windowAccess isWrite addr bytes wdata with
  | some r => runRequest r s
  | none => .refused .outsideWindow

/-- One input, one step (R11, R112). -/
def runInput (input : Input) (s : State) : Result :=
  match input with
  | .bus r => runRequest r s
  | .mem isWrite addr bytes wdata => runMem isWrite addr bytes wdata s
  | .reset => .next (applyReset s)
  | .attach p => .next (applyAttach p s)
  | .detach => .next (applyDetach s)

/-- The window access an input is, if it is one. -/
def requestOf (input : Input) : Option BusRequest :=
  match input with
  | .bus r => some r
  | .mem isWrite addr bytes wdata => windowAccess isWrite addr bytes wdata
  | .reset | .attach _ | .detach => none

/-- The transaction an input is, if it is one. -/
def transactionOf (input : Input) : Option Instr :=
  match requestOf input with
  | some r =>
    match decode r with
    | .ok i => some i
    | .error _ => none
  | none => none

/-- One step of the machine. A machine in which a ConfigError is recorded runs nothing more (R104; log 9). Otherwise the
oldest input is taken and runs to completion (R11, R46, R50); with none waiting the machine keeps its state (R35;
log 2). -/
def advance (s : State) : Result :=
  match s.faulted with
  | some record => .fault (.configError record)
  | none =>
    match s.inbox with
    | [] => .next s
    | input :: rest => runInput input { s with inbox := rest }

/-- The machine with one more input delivered after those that wait (R50). -/
def deliver (input : Input) (s : State) : State := { s with inbox := s.inbox ++ [input] }

/-- The machine with an input placed so that the next step takes it. -/
def placeNext (input : Input) (s : State) : State := { s with inbox := input :: s.inbox }

end Sys2Proof.Machine
end

