-- ==== Sys2Proof/Machine/Step.lean ====
section
/-! DEFINITION. One step of the machine: one access, one reset or one host action (R11). -/

namespace Sys2Proof.Machine

/-- One step: one access, one reset or one host action (R11), as `advance` takes it. -/
def step (s : State) : Host.Outcome State Fault Refusal := advance s

/-- `s` with the access of a table word, its operand word zero, placed where the next step takes its input (log 14). -/
def State.withFetchWord (s : State) (_nbits w : Nat) : State :=
  placeNext (.bus (BusRequest.ofTableWord w)) s

end Sys2Proof.Machine
end

