-- ==== Sys2Proof/Machine/Assembler.lean ====
section
/-! DEFINITION. The transaction syntax, pseudo-instructions and directives of R66 to R68 as terms (the spec's own
notation, D2), the input each stands for, and loading a program of them (log 14, log 22). -/

namespace Sys2Proof.Machine

/-- `<target>` of R66: a register name, or `@<offset>`. -/
inductive Target where
  | reg (r : Reg)
  | at (off : Offset)
  deriving DecidableEq, Repr

/-- The offset of a register (R27). -/
def regOffset (r : Reg) : Offset :=
  match r with
  | .tx => 0x00
  | .rx => 0x04
  | .control => 0x08
  | .status => 0x0C
  | .evStatus => 0x10
  | .evPending => 0x14
  | .evEnable => 0x18

/-- The offset of a target (R66). -/
def targetOffset (t : Target) : Offset :=
  match t with
  | .reg r => regOffset r
  | .at off => off

/-- A line of a program (R66 to R68). -/
inductive Line where
  /-- `RD <target>` -/
  | rd (t : Target)
  /-- `WR <target>, <imm32>` -/
  | wr (t : Target) (imm : Word)
  /-- `SEND v` -/
  | send (v : Word)
  /-- `ACK m` -/
  | ack (m : Word)
  /-- `ACK.INT` -/
  | ackInt
  /-- `ACK.HOLD` -/
  | ackHold
  /-- `ENABLE m` -/
  | enable (m : Word)
  /-- `CTRL m` -/
  | ctrl (m : Word)
  /-- `RESET` -/
  | reset
  /-- `ATTACH echo` -/
  | attachEcho
  /-- `ATTACH <name>`, with the replies the program states -/
  | attach (name : Nat) (replies : List Byte)
  /-- `DETACH` -/
  | detach
  deriving DecidableEq, Repr

/-- A read of an offset (R66). -/
def readAt (off : Offset) : Input := .bus { isWrite := false, offset := off.toNat, bytes := 4, wdata := 0 }

/-- A write at an offset (R66). -/
def writeAt (off : Offset) (imm : Word) : Input := .bus { isWrite := true, offset := off.toNat, bytes := 4, wdata := imm }

/-- The input a line stands for; a pseudo-instruction expands to exactly one transaction (R66 to R68). -/
def lineInput (l : Line) : Input :=
  match l with
  | .rd t => readAt (targetOffset t)
  | .wr t imm => writeAt (targetOffset t) imm
  | .send v => writeAt (regOffset .tx) v
  | .ack m => writeAt (regOffset .evPending) m
  | .ackInt => writeAt (regOffset .evPending) 0x1
  | .ackHold => writeAt (regOffset .evPending) 0x2
  | .enable m => writeAt (regOffset .evEnable) m
  | .ctrl m => writeAt (regOffset .control) m
  | .reset => .reset
  | .attachEcho => .attach .echo
  | .attach name replies => .attach (.device name replies)
  | .detach => .detach

/-- The machine with the lines of a program delivered, the first line to be taken first. -/
def load (program : List Line) (s : State) : State := { s with inbox := s.inbox ++ program.map lineInput }

end Sys2Proof.Machine
end

