-- ==== Sys2Proof/Machine/Platform.lean ====
section
/-! DEFINITION. The contracts the block presents to the platform around it, over the open parameters of R7: where an
offset lies on the system bus, which controller input the line drives, and what a byte-addressed processor sees of a
double word. No rule of the block depends on any of them. -/

namespace Sys2Proof.Machine

/-- The system-bus address of an offset (R10, R37). -/
def systemAddress (off : Offset) : Nat := Config.comBase + off.toNat

/-- The interrupt-controller input the block drives, and its level (R103). -/
def irqInput (s : State) : Nat × Bool := (Config.comIrq, irqLine s)

/-- The four bytes of a double word at rising byte addresses, in a given lane order (R45, D5). -/
def lanes (order : ByteOrder) (w : Word) : List Byte :=
  match order with
  | .little => [w.extractLsb' 0 8, w.extractLsb' 8 8, w.extractLsb' 16 8, w.extractLsb' 24 8]
  | .big => [w.extractLsb' 24 8, w.extractLsb' 16 8, w.extractLsb' 8 8, w.extractLsb' 0 8]

/-- What a byte-addressed processor sees of a double word (R45, D5: "must take the parameter"). -/
def memoryView (w : Word) : List Byte := lanes Config.busByteOrder w

end Sys2Proof.Machine
end

