-- ==== Sys2Proof/Safety.lean ====
section
/-! DEFINITION. What counts as a safe run, in the terms claims use: quiet states (R32, R33), final states (R104), the
boot rule on what is delivered (R121, R125), and sequences of transactions. -/

namespace Sys2Proof.Machine

/-- The invariant of R32 at every access boundary: both status bits are 0. -/
def ComState.Settled (c : ComState) : Prop := c.intStatus = false ∧ c.holdStatus = false

/-- The invariants of R32 and R33 together: both status bits and `hold_pending` are 0. A claim that rests on it rests on
the unwired hold source (R33, D21; log 17). -/
def ComState.Quiet (c : ComState) : Prop := c.Settled ∧ c.holdPending = false

/-- The machine with another `auto_hold`; for comparing two machines that differ in it alone (R18). -/
def State.setAutoHold (b : Bool) (s : State) : State := { s with com := { s.com with autoHold := b } }

/-- The machine with another answer on its bus port. -/
def State.setAnswer (a : Answer) (s : State) : State := { s with answer := a }

/-- The two most recent replies, the later one in the high byte (R20, R91); 0 before two transfers were made. -/
def lastTwoReplies (history : List Transfer) : Half :=
  match history.reverse with
  | second :: first :: _ => second.reply ++ first.reply
  | [_] => 0
  | [] => 0

/-- `rx` "holds concatenation of last two transfer results; byte 0 = low, byte 1 = high" (R20). -/
def State.RxHoldsLastReplies (s : State) : Prop := s.com.rx = lastTwoReplies s.transfers

/-- A recorded error is the unattached ComTx write's: `req` = 0x100 (R104, R105). -/
def State.RecordIsOfTx (s : State) : Prop :=
  ∀ record, s.faulted = some record → record.error = .unattachedTransferTarget ∧ record.req = 0x100

/-- A final state: everything delivered has run and no error is recorded; "a faulted state is never a final state"
(R104). -/
def State.Final (s : State) : Prop := s.faulted = none ∧ s.inbox = []

/-- The transaction the next step runs, if it runs one. -/
def State.nextTransaction (s : State) : Option Instr :=
  match s.inbox with
  | [] => none
  | input :: _ => transactionOf input

/-- Is the next step the reset lifecycle input? -/
def State.resetsNext (s : State) : Bool :=
  match s.inbox with
  | .reset :: _ => true
  | _ => false

/-- Is the input an access of the block, a reset or a host action, and not an access the block's interface lacks? -/
def inputAccepted (input : Input) : Bool :=
  match requestOf input with
  | some r => r.bytes == 4 && decide (r.offset < 256)
  | none =>
    match input with
    | .reset | .attach _ | .detach => true
    | .bus _ | .mem _ _ _ _ => false

/-- Is the input a ComTx write? -/
def inputSends (input : Input) : Bool :=
  match transactionOf input with
  | some (.wrTx _) => true
  | _ => false

/-- Whether a transfer peripheral is attached after the input. -/
def attachedAfter (attached : Bool) (input : Input) : Bool :=
  match input with
  | .attach _ => true
  | .detach => false
  | .bus _ | .mem _ _ _ _ | .reset => attached

/-- The boot rule on a sequence of inputs: every one is accepted, and each ComTx write comes while a transfer peripheral
is attached (R121 step 1, R125). -/
def bootRule (attached : Bool) (inputs : List Input) : Bool :=
  match inputs with
  | [] => true
  | input :: rest =>
    inputAccepted input && (attached || !inputSends input) && bootRule (attachedAfter attached input) rest

/-- Transactions one after another, stopping at the first that gives no next state. -/
def execAll (is : List Instr) (s : State) : Result :=
  match is with
  | [] => .next s
  | i :: rest =>
    match exec i s with
    | .next t => execAll rest t
    | .fault r => .fault r
    | .refused r => .refused r

end Sys2Proof.Machine
end

