-- ==== Sys2Proof/Certificates/Slice0/Obligations.lean ====
section
/-! DEFINITION. The statements put to the provers. Each docstring names the rule or the decision of the spec it
formalises; a statement that rests on a decision D<n> of spec/92_eei_decisions.md, or on a choice of the model, says so. -/

open Sys2Proof Sys2Proof.Machine

/-! ### Reads -/

/-- R61: the value each read composes, in every state and with whatever is attached, and that nothing but the port's
answer changes (the frame of the eleven read transactions at aligned offsets). -/
def Obligations.ReadsAnswerComposedFields : Prop :=
  ∀ s : State,
    exec .rdTx s = .next { s with answer := .rdata 0 } ∧
    (∃ v : Word, v.toNat = s.com.rx.toNat ∧ exec .rdRx s = .next { s with answer := .rdata v }) ∧
    (∃ v : Word, v.toNat = 2 * s.com.autoHold.toNat + s.com.intEna.toNat ∧
      exec .rdControl s = .next { s with answer := .rdata v }) ∧
    exec .rdStatus s = .next { s with answer := .rdata 0 } ∧
    (∃ v : Word, v.toNat = 2 * s.com.holdStatus.toNat + s.com.intStatus.toNat ∧
      exec .rdEvStatus s = .next { s with answer := .rdata v }) ∧
    (∃ v : Word, v.toNat = 2 * s.com.holdPending.toNat + s.com.intPending.toNat ∧
      exec .rdEvPending s = .next { s with answer := .rdata v }) ∧
    (∃ v : Word, v.toNat = 2 * s.com.holdEnable.toNat + s.com.intEnable.toNat ∧
      exec .rdEvEnable s = .next { s with answer := .rdata v }) ∧
    exec .rdUnmapped1C s = .next { s with answer := .rdata 0 } ∧
    ∀ off : Offset,
      exec (.rdUnmapped20 off) s = .next { s with answer := .rdata 0 } ∧
      exec (.rdUnmapped40 off) s = .next { s with answer := .rdata 0 } ∧
      exec (.rdUnmapped80 off) s = .next { s with answer := .rdata 0 }

/-- R70, R73, R21, R22: the request words 0x000 and 0x00C are the reads of ComTx and ComStatus, and each answers 0 in
every state: after any earlier write, attached or not. -/
def Obligations.TxAndStatusReadZero : Prop :=
  ∀ (operand : Word) (s : State),
    decodeWord 0x000 operand = .rdTx ∧ decodeWord 0x00C operand = .rdStatus ∧
    exec .rdTx s = .next { s with answer := .rdata 0 } ∧
    exec .rdStatus s = .next { s with answer := .rdata 0 } ∧
    ∀ (w : Word) (t : State), exec (.wrTx w) s = .next t →
      exec .rdTx t = .next { t with answer := .rdata 0 } ∧ exec .rdStatus t = .next { t with answer := .rdata 0 }

/-- R39, R77, R86: at every aligned unmapped offset a read answers 0, a write does nothing and reports nothing, and a
read after the write answers 0; and the four rows of each direction, named. -/
def Obligations.UnmappedAccessesAreBenign : Prop :=
  (∀ (off : Offset) (w : Word) (s : State), off.toNat % 4 = 0 → 0x1C ≤ off.toNat →
    exec (decodeWord (reqWord false off) w) s = .next { s with answer := .rdata 0 } ∧
    exec (decodeWord (reqWord true off) w) s = .next { s with answer := .done } ∧
    exec (decodeWord (reqWord false off) w) { s with answer := .done } = .next { s with answer := .rdata 0 }) ∧
  ∀ (off : Offset) (w : Word) (s : State),
    exec .rdUnmapped1C s = .next { s with answer := .rdata 0 } ∧
    exec (.rdUnmapped20 off) s = .next { s with answer := .rdata 0 } ∧
    exec (.rdUnmapped40 off) s = .next { s with answer := .rdata 0 } ∧
    exec (.rdUnmapped80 off) s = .next { s with answer := .rdata 0 } ∧
    exec (.wrUnmapped1C w) s = .next { s with answer := .done } ∧
    exec (.wrUnmapped20 off w) s = .next { s with answer := .done } ∧
    exec (.wrUnmapped40 off w) s = .next { s with answer := .done } ∧
    exec (.wrUnmapped80 off w) s = .next { s with answer := .done }

/-- Rests on decision D3 (log 10): a misaligned access is as at an unmapped offset and reaches no neighbouring register;
a read answers 0 and a write does nothing, in every state; and the two rows of each direction, named. -/
def Obligations.MisalignedAccessesTouchNothing : Prop :=
  (∀ (off : Offset) (w : Word) (s : State), off.toNat % 4 ≠ 0 →
    exec (decodeWord (reqWord false off) w) s = .next { s with answer := .rdata 0 } ∧
    exec (decodeWord (reqWord true off) w) s = .next { s with answer := .done }) ∧
  ∀ (off : Offset) (w : Word) (s : State),
    exec (.rdMisalignedOdd off) s = .next { s with answer := .rdata 0 } ∧
    exec (.rdMisalignedHalf off) s = .next { s with answer := .rdata 0 } ∧
    exec (.wrMisalignedOdd off w) s = .next { s with answer := .done } ∧
    exec (.wrMisalignedHalf off w) s = .next { s with answer := .done }

/-- R72: the request word 0x008 reads ComControl: bit 0 is `int_ena`, bit 1 `auto_hold`, the rest 0; a read right after
reset() answers what a read before it did; `auto_hold` reads back as written. -/
def Obligations.ControlReadsItsBitsAndSurvivesReset : Prop :=
  ∀ (operand : Word) (s : State),
    decodeWord 0x008 operand = .rdControl ∧
    (∃ v : Word, v.getLsbD 0 = s.com.intEna ∧ v.getLsbD 1 = s.com.autoHold ∧ (∀ k, 2 ≤ k → v.getLsbD k = false) ∧
      exec .rdControl s = .next { s with answer := .rdata v } ∧
      exec .rdControl (applyReset s) = .next { applyReset s with answer := .rdata v }) ∧
    ∀ w : Word, ∃ t, exec (.wrControl w) s = .next t ∧
      exec .rdControl t = .next { t with answer := .rdata (w &&& 3) }

/-- R74: the request word 0x010 reads ComEvStatus, composed from the two status fields in every state; in a state with
both at rest (every access boundary, R32) it answers 0. -/
def Obligations.EvStatusIsComposedAndRestsAtZero : Prop :=
  ∀ (operand : Word) (s : State),
    decodeWord 0x010 operand = .rdEvStatus ∧
    ∃ v : Word, v.getLsbD 0 = s.com.intStatus ∧ v.getLsbD 1 = s.com.holdStatus ∧ (∀ k, 2 ≤ k → v.getLsbD k = false) ∧
      exec .rdEvStatus s = .next { s with answer := .rdata v } ∧ (s.com.Settled → v = 0)

/-- The frame and the determinacy of reads (20_memory section 3, 40_register_reads): any read, in every state, answers a
value fixed by the block's nine fields alone and changes nothing else, whatever is attached. For the misaligned reads it
rests on D3 (log 10). -/
def Obligations.ReadsDependOnBlockFieldsOnly : Prop :=
  ∀ (i : Instr) (c : ComState), i.isRead = true →
    ∃ v : Word, ∀ s : State, s.com = c → exec i s = .next { s with answer := .rdata v }

/-! ### Writes other than ComTx -/

/-- R81: the request word 0x108 writes ComControl: bits 0 and 1 of `wdata` are stored, nothing else changes, the line
does not move, and a read gives the two bits back. -/
def Obligations.ControlWriteStoresAndReadsBack : Prop :=
  ∀ (w : Word) (s : State),
    decodeWord 0x108 w = .wrControl w ∧
    ∃ t, exec (.wrControl w) s = .next t ∧
      t = { s with com := { s.com with intEna := w.getLsbD 0, autoHold := w.getLsbD 1 }, answer := .done } ∧
      irqLine t = irqLine s ∧
      exec .rdControl t = .next { t with answer := .rdata (w &&& 3) }

/-- R84, at an access boundary (both status bits 0, R32): the request word 0x114 clears exactly the pending bits written
1 and changes nothing else; the line is then the function of the new bits. -/
def Obligations.AcknowledgeClearsTheWrittenOnes : Prop :=
  ∀ (w : Word) (s : State), s.com.Settled →
    decodeWord 0x114 w = .wrEvPending w ∧
    ∃ t, exec (.wrEvPending w) s = .next t ∧
      t = { s with
            com := { s.com with
              intPending := if w.getLsbD 0 then false else s.com.intPending
              holdPending := if w.getLsbD 1 then false else s.com.holdPending }
            answer := .done } ∧
      irqLine t = ((t.com.intPending && s.com.intEnable) || (t.com.holdPending && s.com.holdEnable))

/-- Rests on decision D19 (log 13): `Recompute()` runs after every write to ComEvPending, so in a state built with a
status bit at 1 that source's pending bit is latched again. -/
def Obligations.AcknowledgeThenRecomputesInEveryState : Prop :=
  ∀ (w : Word) (s : State),
    exec (.wrEvPending w) s = .next { s with
      com := { s.com with
        intPending := (s.com.intPending && !w.getLsbD 0) || s.com.intStatus
        holdPending := (s.com.holdPending && !w.getLsbD 1) || s.com.holdStatus }
      answer := .done }

/-- R85, at an access boundary (both status bits 0, R32): the request word 0x118 stores the two enables and changes
nothing else; an event pended before raises the line at once if its enable is written 1, and no pending bit is lost. -/
def Obligations.EnableWriteStoresTheMask : Prop :=
  ∀ (w : Word) (s : State), s.com.Settled →
    decodeWord 0x118 w = .wrEvEnable w ∧
    ∃ t, exec (.wrEvEnable w) s = .next t ∧
      t = { s with com := { s.com with intEnable := w.getLsbD 0, holdEnable := w.getLsbD 1 }, answer := .done } ∧
      irqLine t = ((s.com.intPending && w.getLsbD 0) || (s.com.holdPending && w.getLsbD 1))

/-- Rests on decision D19 (log 13): `Recompute()` runs after every write to ComEvEnable, in states with a status bit at
1 too. -/
def Obligations.EnableThenRecomputesInEveryState : Prop :=
  ∀ (w : Word) (s : State),
    exec (.wrEvEnable w) s = .next { s with
      com := { s.com with
        intEnable := w.getLsbD 0
        holdEnable := w.getLsbD 1
        intPending := s.com.intPending || s.com.intStatus
        holdPending := s.com.holdPending || s.com.holdStatus }
      answer := .done }

/-- Rests on decision D10 (log 12): a write to ComRx, ComStatus or ComEvStatus changes nothing and reports nothing. -/
def Obligations.ReadOnlyRegistersIgnoreWrites : Prop :=
  ∀ (w : Word) (s : State),
    decodeWord 0x104 w = .wrRx w ∧ decodeWord 0x10C w = .wrStatus w ∧ decodeWord 0x110 w = .wrEvStatus w ∧
    exec (.wrRx w) s = .next { s with answer := .done } ∧
    exec (.wrStatus w) s = .next { s with answer := .done } ∧
    exec (.wrEvStatus w) s = .next { s with answer := .done }

/-! ### The ComTx write -/

/-- R90, R91: with a peripheral attached, a ComTx write makes exactly two calls, the low byte first; the second goes to
the peripheral as the first left it; `rx` is the second reply above the first, whatever `int_ena` is. That the write
completes rests on decision D12 (log 8); the form of a reply, `replyOf` with its draw number, is the model's (D11, log 6,
log 7), a free value where none is stated. -/
def Obligations.TxSendsLowByteThenHighByte : Prop :=
  ∀ (w : Word) (s : State) (p : Peripheral), s.xfer = some p →
    ∃ (t : State) (lo hi first second : Byte),
      exec (.wrTx w) s = .next t ∧
      lo.toNat = w.toNat % 256 ∧ hi.toNat = w.toNat / 256 % 256 ∧
      first = replyOf p s.draws lo ∧ second = replyOf (afterCall p) (s.draws + drawsOf p) hi ∧
      t.transfers = s.transfers ++ [{ sent := lo, reply := first }, { sent := hi, reply := second }] ∧
      t.com.rx.toNat = 256 * second.toNat + first.toNat

/-- The whole next state of an attached ComTx write, in every state: 42_transmit's pseudocode, with `Recompute()` reading
both status bits. The replies are draws (D11, log 6, log 7) and a call never fails (D12, log 8). -/
def Obligations.TxAttachedNextState : Prop :=
  ∀ (w : Word) (s : State) (p : Peripheral), s.xfer = some p →
    ∃ (lo hi first second : Byte),
      lo.toNat = w.toNat % 256 ∧ hi.toNat = w.toNat / 256 % 256 ∧
      first = replyOf p s.draws lo ∧ second = replyOf (afterCall p) (s.draws + drawsOf p) hi ∧
      exec (.wrTx w) s = .next { s with
        com := { s.com with
          rx := second ++ first
          intStatus := s.com.intStatus && !s.com.intEna
          intPending := s.com.intPending || s.com.intEna
          holdPending := s.com.holdPending || (s.com.intEna && s.com.holdStatus) }
        xfer := some (afterCall (afterCall p))
        transfers := s.transfers ++ [{ sent := lo, reply := first }, { sent := hi, reply := second }]
        draws := s.draws + drawsOf p + drawsOf (afterCall p)
        answer := .done }

/-- Rests on decisions D9 and D17 (log 9): with nothing attached a ComTx write makes no transfer and changes no field of
the block; the error, code 1, is the write's answer and is recorded with the access. -/
def Obligations.TxUnattachedRecordsTheError : Prop :=
  ∀ (w : Word) (s : State), s.xfer = none →
    exec (.wrTx w) s = .next { s with
      answer := .configError .unattachedTransferTarget
      faulted := some { error := .unattachedTransferTarget, req := 0x100, wdata := w } } ∧
    ConfigError.unattachedTransferTarget.code = 1

/-- R95, its four properties: the echo round trip through a read of ComRx; `int_ena` = 0 never changes `int_pending`;
`int_ena` = 1 leaves it 1 and the pulse settled; and `int_pending` is sticky across any number of ComTx writes, each of
which completes while a peripheral is attached, until a written 1 clears it. That an attached write completes rests on
decision D12 (log 8). -/
def Obligations.TxConsequences : Prop :=
  (∀ (w : Word) (s : State), s.xfer = some .echo →
    ∃ (t : State) (v : Word), exec (.wrTx w) s = .next t ∧ v.toNat = w.toNat % 65536 ∧
      exec .rdRx t = .next { t with answer := .rdata v }) ∧
  (∀ (w : Word) (s t : State), s.com.intEna = false → exec (.wrTx w) s = .next t →
    t.com.intPending = s.com.intPending) ∧
  (∀ (w : Word) (s : State) (p : Peripheral), s.com.intEna = true → s.xfer = some p →
    ∃ t, exec (.wrTx w) s = .next t ∧ t.com.intPending = true ∧ t.com.intStatus = false) ∧
  (∀ (ws : List Word) (s : State) (p : Peripheral), s.com.intPending = true → s.xfer = some p →
    ∃ t, execAll (ws.map Instr.wrTx) s = .next t ∧ t.com.intPending = true) ∧
  (∀ (w : Word) (s : State), s.com.Settled → w.getLsbD 0 = true →
    ∃ t, exec (.wrEvPending w) s = .next t ∧ t.com.intPending = false ∧
      (w.getLsbD 1 = false → t.com.holdPending = s.com.holdPending))

/-! ### The aggregator and the flags -/

/-- R97: `Recompute()` step by step: each status bit at 1 forces its pending bit, nothing else is written, and the line
is then the function of the four flags. -/
def Obligations.RecomputeLatchesAndDrivesTheLine : Prop :=
  ∀ c : ComState,
    recompute c = { c with
      intPending := c.intPending || c.intStatus
      holdPending := c.holdPending || c.holdStatus } ∧
    (recompute c).irq =
      (((c.intPending || c.intStatus) && c.intEnable) || ((c.holdPending || c.holdStatus) && c.holdEnable))

/-- R26: the enables are stored by a ComEvEnable write, cleared by reset(), and changed by no other step; the line is not
stored but a function of the four flags, in every state. -/
def Obligations.EnablesHaveTwoWritersAndDriveTheLine : Prop :=
  (∀ s t : State, step s = .next t →
    (t.com.intEnable = s.com.intEnable ∧ t.com.holdEnable = s.com.holdEnable) ∨
    (∃ w, s.nextTransaction = some (.wrEvEnable w) ∧ t.com.intEnable = w.getLsbD 0 ∧ t.com.holdEnable = w.getLsbD 1) ∨
    (s.resetsNext = true ∧ t.com.intEnable = false ∧ t.com.holdEnable = false)) ∧
  (∀ (w : Word) (s : State), ∃ t, exec (.wrEvEnable w) s = .next t ∧
    t.com.intEnable = w.getLsbD 0 ∧ t.com.holdEnable = w.getLsbD 1 ∧
    exec .rdEvEnable t = .next { t with answer := .rdata (w &&& 3) }) ∧
  (∀ s : State, (applyReset s).com.intEnable = false ∧ (applyReset s).com.holdEnable = false) ∧
  ∀ s : State, irqLine s = true ↔
    (s.com.intPending = true ∧ s.com.intEnable = true) ∨ (s.com.holdPending = true ∧ s.com.holdEnable = true)

/-- R17, with R89 and R92: `int_ena` is read and written through ComControl bit 0; no other write and no reset changes
it; a ComTx write pulses only when it is 1 at the time of the write. That an attached write completes rests on decision
D12 (log 8); the next state of an unattached one is D9 (log 9); that a write without a pulse leaves `hold_pending` and the
line is read from R89's pseudocode and R99. -/
def Obligations.IntEnaHasOneWriterAndGatesThePulse : Prop :=
  (∀ s t : State, step s = .next t →
    t.com.intEna = s.com.intEna ∨ ∃ w, s.nextTransaction = some (.wrControl w) ∧ t.com.intEna = w.getLsbD 0) ∧
  (∀ (w : Word) (s : State), ∃ t, exec (.wrControl w) s = .next t ∧ t.com.intEna = w.getLsbD 0) ∧
  (∀ s : State, ∃ v : Word, exec .rdControl s = .next { s with answer := .rdata v } ∧ v.getLsbD 0 = s.com.intEna) ∧
  (∀ (w : Word) (s t : State), s.com.intEna = false → exec (.wrTx w) s = .next t →
    t.com.intPending = s.com.intPending ∧ t.com.holdPending = s.com.holdPending ∧
    t.com.intStatus = s.com.intStatus ∧ irqLine t = irqLine s) ∧
  ∀ (w : Word) (s : State) (p : Peripheral), s.com.intEna = true → s.xfer = some p →
    ∃ t, exec (.wrTx w) s = .next t ∧ t.com.intPending = true

/-- R18: `auto_hold` is inert storage, read and written through ComControl bit 1 and left by reset(). Two machines that
differ in it alone take the same step, up to `auto_hold` itself and the answer of a ComControl read, and the line is the
same. -/
def Obligations.AutoHoldIsInert : Prop :=
  (∀ (s t : State) (b : Bool), step s = .next t →
    (t.com.autoHold = s.com.autoHold ∨ ∃ w, s.nextTransaction = some (.wrControl w) ∧ t.com.autoHold = w.getLsbD 1) ∧
    ∃ (b' : Bool) (a : Answer),
      step (s.setAutoHold b) = .next ((t.setAutoHold b').setAnswer a) ∧
      (s.nextTransaction ≠ some .rdControl → a = t.answer) ∧
      irqLine ((t.setAutoHold b').setAnswer a) = irqLine t) ∧
  (∀ (w : Word) (s : State), ∃ t, exec (.wrControl w) s = .next t ∧ t.com.autoHold = w.getLsbD 1) ∧
  ∀ s : State, ∃ v : Word, exec .rdControl s = .next { s with answer := .rdata v } ∧ v.getLsbD 1 = s.com.autoHold

/-- R28: reserved bits hold nothing. Reads return 0 in them; writes with the same other bits do the same. That an
attached ComTx write completes rests on decision D12 (log 8). An unattached one makes no transfer and changes no field
either way, but its error record holds all of `wdata`: decision D9 and the model's form of the record (log 9). The writes
to read-only registers rest on D10 (log 12). -/
def Obligations.ReservedBitsHoldNothing : Prop :=
  (∀ s : State, ∃ rx control status evStatus evPending evEnable : Word,
    exec .rdTx s = .next { s with answer := .rdata 0 } ∧
    exec .rdRx s = .next { s with answer := .rdata rx } ∧
    exec .rdControl s = .next { s with answer := .rdata control } ∧
    exec .rdStatus s = .next { s with answer := .rdata status } ∧
    exec .rdEvStatus s = .next { s with answer := .rdata evStatus } ∧
    exec .rdEvPending s = .next { s with answer := .rdata evPending } ∧
    exec .rdEvEnable s = .next { s with answer := .rdata evEnable } ∧
    (∀ k, 16 ≤ k → rx.getLsbD k = false) ∧
    ∀ k, 2 ≤ k → control.getLsbD k = false ∧ status.getLsbD k = false ∧ evStatus.getLsbD k = false ∧
      evPending.getLsbD k = false ∧ evEnable.getLsbD k = false) ∧
  (∀ (s : State) (w w' : Word), w &&& 3 = w' &&& 3 →
    exec (.wrControl w) s = exec (.wrControl w') s ∧
    exec (.wrEvPending w) s = exec (.wrEvPending w') s ∧
    exec (.wrEvEnable w) s = exec (.wrEvEnable w') s ∧
    exec (.wrStatus w) s = exec (.wrStatus w') s ∧
    exec (.wrEvStatus w) s = exec (.wrEvStatus w') s) ∧
  (∀ (s : State) (w w' : Word), w &&& 0xFFFF = w' &&& 0xFFFF →
    exec (.wrRx w) s = exec (.wrRx w') s ∧
    ∃ t t', exec (.wrTx w) s = .next t ∧ exec (.wrTx w') s = .next t' ∧
      { t' with faulted := t.faulted } = t ∧ (s.xfer ≠ none → t' = t))

/-- The writers of the pending bits (10_state section 2), at an access boundary (R32): `int_pending` is set only by an
attached ComTx write with `int_ena` = 1 and `hold_pending` by nothing (the hold source is unwired, D21, log 17); each is
cleared only by a ComEvPending write with a 1 in its bit, or by reset(). -/
def Obligations.PendingBitsHaveTheirWriters : Prop :=
  ∀ s t : State, s.com.Settled → step s = .next t →
    (s.com.intPending = false → t.com.intPending = true →
      ∃ w, s.nextTransaction = some (.wrTx w) ∧ s.com.intEna = true ∧ s.xfer ≠ none) ∧
    (s.com.intPending = true → t.com.intPending = false →
      (∃ w, s.nextTransaction = some (.wrEvPending w) ∧ w.getLsbD 0 = true) ∨ s.resetsNext = true) ∧
    (s.com.holdPending = false → t.com.holdPending = false) ∧
    (s.com.holdPending = true → t.com.holdPending = false →
      (∃ w, s.nextTransaction = some (.wrEvPending w) ∧ w.getLsbD 1 = true) ∨ s.resetsNext = true)

/-- The writers of the status bits (10_state section 2), in every state: no step leaves one at 1 that was not, an
attached ComTx write with `int_ena` = 1 leaves `int_status` 0, reset() clears both, and nothing else changes either. -/
def Obligations.StatusBitsAreNeverLeftSet : Prop :=
  ∀ s t : State, step s = .next t →
    (t.com.intStatus = s.com.intStatus ∨
      (t.com.intStatus = false ∧
        (s.resetsNext = true ∨ ∃ w, s.nextTransaction = some (.wrTx w) ∧ s.com.intEna = true ∧ s.xfer ≠ none))) ∧
    (t.com.holdStatus = s.com.holdStatus ∨ (t.com.holdStatus = false ∧ s.resetsNext = true))

/-- Conflict C6 and decision D19 (log 13): in a settled state `Recompute()` after a ComEvPending or ComEvEnable write
changes no field, so "on every write" and "on any change" leave the same states. -/
def Obligations.RecomputeAfterAnyWriteAgrees : Prop :=
  ∀ (w : Word) (c : ComState), c.Settled →
    recompute (storeEvPending w c) = storeEvPending w c ∧
    recompute (storeEvEnable w c) = storeEvEnable w c ∧
    recompute (storeControl w c) = storeControl w c

/-! ### Reset, construction, host actions -/

/-- R117: reset() zeroes exactly the six event fields; `int_ena`, `auto_hold` and `rx` stay. (That the attachment, the
history and the waiting inputs stay as well is decision D18 and the model's own, log 5.) -/
def Obligations.ResetZeroesTheEventFieldsOnly : Prop :=
  ∀ (s : State) (rest : List Input), s.faulted = none → s.inbox = .reset :: rest →
    ∃ t, step s = .next t ∧
      t.com.intStatus = false ∧ t.com.holdStatus = false ∧ t.com.intPending = false ∧ t.com.holdPending = false ∧
      t.com.intEnable = false ∧ t.com.holdEnable = false ∧
      t.com.intEna = s.com.intEna ∧ t.com.autoHold = s.com.autoHold ∧ t.com.rx = s.com.rx

/-- 70_reset_and_hazards section 1 (the source's property W7, with the derived level of the line): after reset() the line
is 0, ComEvPending, ComEvStatus and ComEvEnable read 0, and ComControl and ComRx read as before. The step that takes a
reset takes it off the inbox and is that reset: the attachment stays (D18), and the history, the draws and the inputs
behind it stay as well (the model's choice, log 5), with no error recorded and nothing answered. -/
def Obligations.AfterResetTheEventRegistersReadZero : Prop :=
  (∀ s : State, ∃ control rx : Word,
    irqLine (applyReset s) = false ∧
    exec .rdEvPending (applyReset s) = .next { applyReset s with answer := .rdata 0 } ∧
    exec .rdEvStatus (applyReset s) = .next { applyReset s with answer := .rdata 0 } ∧
    exec .rdEvEnable (applyReset s) = .next { applyReset s with answer := .rdata 0 } ∧
    exec .rdControl s = .next { s with answer := .rdata control } ∧
    exec .rdControl (applyReset s) = .next { applyReset s with answer := .rdata control } ∧
    exec .rdRx s = .next { s with answer := .rdata rx } ∧
    exec .rdRx (applyReset s) = .next { applyReset s with answer := .rdata rx } ∧
    (applyReset s).xfer = s.xfer ∧ (applyReset s).transfers = s.transfers) ∧
  ∀ (s : State) (rest : List Input), s.faulted = none → s.inbox = .reset :: rest →
    ∃ t, step s = .next t ∧ t = applyReset { s with inbox := rest } ∧
      t.xfer = s.xfer ∧ t.transfers = s.transfers ∧ t.draws = s.draws ∧ t.faulted = none ∧ t.inbox = rest ∧
      t.answer = .silent ∧ irqLine t = false

/-- Decision D18: attaching, replacing and detaching change the attachment only; the line does not move. -/
def Obligations.HostActionsChangeTheAttachmentOnly : Prop :=
  ∀ (s : State) (rest : List Input) (p : Peripheral), s.faulted = none →
    (s.inbox = .attach p :: rest →
      ∃ t, step s = .next t ∧ t = { s with inbox := rest, xfer := some p, answer := .silent } ∧ irqLine t = irqLine s) ∧
    (s.inbox = .detach :: rest →
      ∃ t, step s = .next t ∧ t = { s with inbox := rest, xfer := none, answer := .silent } ∧ irqLine t = irqLine s)

/-- The state after construction and reset meets the invariants below, no error is recorded in it and no transfer made
(log 18), and its fields are the 0 that decision D8 gives them (log 4); nothing attached (log 5) and nothing waiting
(log 1) are the model's choice. -/
def Obligations.ConstructionMeetsTheInvariants : Prop :=
  State.reset.com.Quiet ∧ State.reset.RxHoldsLastReplies ∧ State.reset.RecordIsOfTx ∧
  irqLine State.reset = false ∧
  State.reset.faulted = none ∧ State.reset.transfers = [] ∧ State.reset.xfer = none ∧ State.reset.inbox = [] ∧
  (∀ x : Option Peripheral, (State.construct x).com = State.reset.com ∧ (State.construct x).xfer = x ∧
    resetFields (State.construct x).com = (State.construct x).com) ∧
  State.reset.com.intEna = false ∧ State.reset.com.autoHold = false ∧ State.reset.com.rx = 0

/-! ### Steps -/

/-- A step runs the decoded transaction (R11, R46): when the oldest input is an access that decodes to `i` and no error
is recorded, the step takes it off the inbox and is `exec i`. The inbox is the model's own (log 1). -/
def Obligations.StepRunsTheDecodedAccess : Prop :=
  ∀ (s : State) (r : BusRequest) (rest : List Input) (i : Instr),
    s.faulted = none → s.inbox = .bus r :: rest → decode r = .ok i → step s = exec i { s with inbox := rest }

/-- For any `COM_BASE` (D6, log 15), an access at a system-bus address of the window is the access at its offset, and one
outside the window is refused. That an offset is placed by adding it to the base, that addresses do not wrap, and that an
address below the base is refused like one beyond the window (D20) are the model's choice (log 21). -/
def Obligations.SystemBusAccessIsPlacedByTheBase : Prop :=
  ∀ (s : State) (rest : List Input) (isWrite : Bool) (w : Word) (bytes : Nat), s.faulted = none →
    (∀ off : Offset, s.inbox = .mem isWrite (systemAddress off) bytes w :: rest →
      step s = step { s with
        inbox := .bus { isWrite := isWrite, offset := off.toNat, bytes := bytes, wdata := w } :: rest }) ∧
    (∀ addr : Nat, s.inbox = .mem isWrite addr 4 w :: rest →
      (addr < systemAddress 0 ∨ systemAddress 0xFF < addr) → step s = .refused .outsideWindow)

/-- Decisions D4 and D20 (log 11): an access that does not move 32 bits, or lies outside the window, is refused by name,
its width judged first (the model's order, log 11), and every other access completes. That it does rests on D12 (log 8) for
an attached ComTx write, on D9 (log 9) for an unattached one, on D3 (log 10) for misaligned offsets and on D10 (log 12) for
read-only registers; the inbox is the model's own (log 1). -/
def Obligations.ForeignAccessesAreRefusedByName : Prop :=
  ∀ (s : State) (rest : List Input) (r : BusRequest), s.faulted = none → s.inbox = .bus r :: rest →
    (r.bytes ≠ 4 → step s = .refused .notDoubleWord) ∧
    (r.bytes = 4 → 256 ≤ r.offset → step s = .refused .outsideWindow) ∧
    (r.bytes = 4 → r.offset < 256 → ∃ t, step s = .next t)

/-- Decision D9 and the program P4 (log 9): an unattached ComTx write records the error with the block's fields as they
were, and the step after it runs nothing, whatever waits. -/
def Obligations.AfterAConfigErrorNothingRuns : Prop :=
  (∀ (s : State) (w : Word) (rest : List Input), s.faulted = none → s.xfer = none →
    s.inbox = .bus { isWrite := true, offset := 0, bytes := 4, wdata := w } :: rest →
    ∃ t record, step s = .next t ∧ t.com = s.com ∧ t.transfers = s.transfers ∧ t.faulted = some record ∧
      step t = .fault (.configError record)) ∧
  ∀ (s : State) (record : FaultRecord), s.faulted = some record → step s = .fault (.configError record) ∧ ¬ s.Final

/-- With no input waiting the machine keeps its state: the model's choice (log 2; 10_state section 4 says the block is
mutated only through bus accesses and reset). -/
def Obligations.IdleMachineKeepsItsState : Prop :=
  ∀ s : State, s.inbox = [] → s.faulted = none → step s = .next s

/-! ### Encoding -/

/-- R58: `req[8]` selects reads or writes; each mapped offset is matched exactly; and every request word, with any
operand, selects exactly one row of the opcode map, whose transaction is the one decode gives. -/
def Obligations.OpcodeMapDecidesEveryWord : Prop :=
  ∀ (req : ReqWord) (w : Word),
    (∃ row, opcodeTable.filter (fun r => r.selects req) = [row] ∧ decodeWord req w = row.build (reqOffset req) w) ∧
    (decodeWord req w).isRead = !req.getLsbD 8 ∧
    (decodeWord req w = .rdTx ↔ req = 0x000) ∧ (decodeWord req w = .wrTx w ↔ req = 0x100) ∧
    (decodeWord req w = .rdRx ↔ req = 0x004) ∧ (decodeWord req w = .wrRx w ↔ req = 0x104) ∧
    (decodeWord req w = .rdControl ↔ req = 0x008) ∧ (decodeWord req w = .wrControl w ↔ req = 0x108) ∧
    (decodeWord req w = .rdStatus ↔ req = 0x00C) ∧ (decodeWord req w = .wrStatus w ↔ req = 0x10C) ∧
    (decodeWord req w = .rdEvStatus ↔ req = 0x010) ∧ (decodeWord req w = .wrEvStatus w ↔ req = 0x110) ∧
    (decodeWord req w = .rdEvPending ↔ req = 0x014) ∧ (decodeWord req w = .wrEvPending w ↔ req = 0x114) ∧
    (decodeWord req w = .rdEvEnable ↔ req = 0x018) ∧ (decodeWord req w = .wrEvEnable w ↔ req = 0x118)

/-- Decode and encode agree: a bus master's access for a well-formed transaction decodes to it, with every offset of its
class and every operand. The packing is decision D2 (log 14). -/
def Obligations.DecodeOfEncode : Prop :=
  ∀ i : Instr, i.WellFormed → decode (encode i) = .ok i

/-- The other direction: the transaction decoded from a request word and operand is well formed, encodes to the same
word, and keeps the operand of a write (D2, log 14). -/
def Obligations.EncodeOfDecode : Prop :=
  ∀ (req : ReqWord) (w : Word),
    (decodeWord req w).WellFormed ∧ encodeReq (decodeWord req w) = req ∧
    (decodeWord req w).isRead = !reqIsWrite req ∧
    encodeData (decodeWord req w) = if reqIsWrite req then w else 0

/-- An access is accepted exactly when it is a double word inside the window (D4, D20, log 11). -/
def Obligations.DecodeAcceptsDoubleWordsInTheWindow : Prop :=
  ∀ r : BusRequest, (∃ i, decode r = .ok i) ↔ (r.bytes = 4 ∧ r.offset < 256)

/-- Request words written out from the opcode map, one of each family (a sanity statement; D2). -/
def Obligations.TableWordsDecodeAsWritten : Prop :=
  ∀ w : Word,
    decodeWord 0b000000000 w = .rdTx ∧ decodeWord 0b000000100 w = .rdRx ∧ decodeWord 0b000011000 w = .rdEvEnable ∧
    decodeWord 0b000011100 w = .rdUnmapped1C ∧ decodeWord 0b000111100 w = .rdUnmapped20 0x3C ∧
    decodeWord 0b011111111 w = .rdMisalignedOdd 0xFF ∧ decodeWord 0b000010110 w = .rdMisalignedHalf 0x16 ∧
    decodeWord 0b100000000 w = .wrTx w ∧ decodeWord 0b100010100 w = .wrEvPending w ∧
    decodeWord 0b111111100 w = .wrUnmapped80 0xFC w ∧ decodeWord 0b100010101 w = .wrMisalignedOdd 0x15 w

/-- 30_encoding section 6 (D2, log 22): a register name is its offset, a RD or WR line of a name or of an offset is
exactly one transaction, each pseudo-instruction is exactly one transaction, and a directive is none. -/
def Obligations.PseudoInstructionsAreOneTransaction : Prop :=
  (regOffset .tx = 0x00 ∧ regOffset .rx = 0x04 ∧ regOffset .control = 0x08 ∧ regOffset .status = 0x0C ∧
    regOffset .evStatus = 0x10 ∧ regOffset .evPending = 0x14 ∧ regOffset .evEnable = 0x18) ∧
  (∀ (r : Reg) (m : Word),
    transactionOf (lineInput (.rd (.reg r))) = some (decodeWord (reqWord false (regOffset r)) 0) ∧
    transactionOf (lineInput (.wr (.reg r) m)) = some (decodeWord (reqWord true (regOffset r)) m)) ∧
  (∀ (p : Nat) (replies : List Byte),
    transactionOf (lineInput .attachEcho) = none ∧ transactionOf (lineInput (.attach p replies)) = none ∧
    transactionOf (lineInput .detach) = none) ∧
  ∀ (m : Word) (off : Offset),
    transactionOf (lineInput (.send m)) = some (.wrTx m) ∧
    transactionOf (lineInput (.ack m)) = some (.wrEvPending m) ∧
    transactionOf (lineInput .ackInt) = some (.wrEvPending 1) ∧
    transactionOf (lineInput .ackHold) = some (.wrEvPending 2) ∧
    transactionOf (lineInput (.enable m)) = some (.wrEvEnable m) ∧
    transactionOf (lineInput (.ctrl m)) = some (.wrControl m) ∧
    transactionOf (lineInput (.rd (.at off))) = some (decodeWord (reqWord false off) 0) ∧
    transactionOf (lineInput (.wr (.at off) m)) = some (decodeWord (reqWord true off) m) ∧
    transactionOf (lineInput .reset) = none

/-! ### Whole-machine rules -/

/-- Every transaction completes, in every state and with every operand: no request word is refused (30_encoding section
5); an unattached ComTx write completes by recording its error (D9, log 9). That an attached one completes rests on D12
(log 8), that a misaligned access does on D3 (log 10), and that a write to a read-only register does on D10 (log 12). -/
def Obligations.EveryTransactionCompletes : Prop :=
  ∀ (i : Instr) (s : State), ∃ t, exec i s = .next t ∧
    (t.faulted ≠ s.faulted → ∃ w, i = .wrTx w ∧ s.xfer = none)

/-- The frame of the twenty-five transactions that are not a ComTx write: only the block's fields and the port's answer
can change; the attachment, the history, the draws, the waiting inputs and the error record stay; `rx` stays; the
fields change only for writes to ComControl, ComEvPending and ComEvEnable; and the outcome is the same whatever is
attached. For misaligned offsets and read-only registers it rests on D3 (log 10) and D10 (log 12). -/
def Obligations.FrameOutsideTheTxWrite : Prop :=
  ∀ (i : Instr) (s : State), (∀ w, i ≠ .wrTx w) →
    ∃ (c : ComState) (a : Answer), exec i s = .next { s with com := c, answer := a } ∧ c.rx = s.com.rx ∧
      (c ≠ s.com → ∃ w, i = .wrControl w ∨ i = .wrEvPending w ∨ i = .wrEvEnable w) ∧
      ∀ x : Option Peripheral, exec i { s with xfer := x } = .next { s with xfer := x, com := c, answer := a }

/-- Transfers are made by attached ComTx writes only, two each, and the history is never rewritten (42_transmit: "called
exactly twice per ComTx write, in low-byte-then-high-byte order", and never by any other transaction). -/
def Obligations.TransfersComeInPairsFromTxWrites : Prop :=
  ∀ s t : State, step s = .next t →
    t.transfers = s.transfers ∨
    ∃ (w : Word) (first second : Byte), s.nextTransaction = some (.wrTx w) ∧ s.xfer ≠ none ∧
      t.transfers = s.transfers ++
        [{ sent := BitVec.ofNat 8 (w.toNat % 256), reply := first },
         { sent := BitVec.ofNat 8 (w.toNat / 256 % 256), reply := second }]

/-- The invariant of R32 and R33, kept by every step from every state that meets it, whatever input is taken. It rests
on the unwired hold source (D21, log 17). -/
def Obligations.QuietIsKeptByEveryStep : Prop :=
  ∀ s t : State, s.com.Quiet → step s = .next t → t.com.Quiet

/-- `rx` holds the last two replies in every state a step reaches from one where it does; and only a ComTx write changes
it: not a ComRx write, not reset() (10_state section 2). -/
def Obligations.RxHoldsTheLastRepliesAfterEveryStep : Prop :=
  ∀ s t : State, step s = .next t →
    (s.RxHoldsLastReplies → t.RxHoldsLastReplies) ∧
    (t.com.rx ≠ s.com.rx → ∃ w, s.nextTransaction = some (.wrTx w))

/-- The error record is always that of an unattached ComTx write (60_exceptions section 3; its form is the model's, log
9), and a record present after a step was raised by that step. -/
def Obligations.ErrorRecordIsOfAnUnattachedTxWrite : Prop :=
  ∀ s t : State, s.RecordIsOfTx → step s = .next t →
    t.RecordIsOfTx ∧
    (t.faulted ≠ none → s.xfer = none ∧ ∃ w, s.nextTransaction = some (.wrTx w) ∧
      t.faulted = some { error := .unattachedTransferTarget, req := 0x100, wdata := w })

/-- The line falls only by a ComEvPending write, a ComEvEnable write or reset() (60_exceptions section 2, derived there),
from every state, reachable or not. -/
def Obligations.LineFallsOnlyByAcknowledgeDisableOrReset : Prop :=
  ∀ s t : State, step s = .next t → irqLine s = true → irqLine t = false →
    (∃ w, s.nextTransaction = some (.wrEvPending w) ∧ (w.getLsbD 0 = true ∨ w.getLsbD 1 = true)) ∨
    (∃ w, s.nextTransaction = some (.wrEvEnable w) ∧ (w.getLsbD 0 = false ∨ w.getLsbD 1 = false)) ∨
    s.resetsNext = true

/-- From a settled state the line rises only by an attached ComTx write with `int_ena` and `int_enable` at 1, or by a
ComEvEnable write that enables a source already pending (a stale event; 70_reset_and_hazards section 3). -/
def Obligations.LineRisesOnlyByTxOrEnable : Prop :=
  ∀ s t : State, s.com.Settled → step s = .next t → irqLine s = false → irqLine t = true →
    (∃ w, s.nextTransaction = some (.wrTx w) ∧ s.xfer ≠ none ∧ s.com.intEna = true ∧ s.com.intEnable = true) ∨
    (∃ w, s.nextTransaction = some (.wrEvEnable w) ∧
      ((s.com.intPending = true ∧ w.getLsbD 0 = true) ∨ (s.com.holdPending = true ∧ w.getLsbD 1 = true)))

/-- The boot rule suffices (70_reset_and_hazards section 2): if everything delivered is an access of the block, a reset or
a host action, and every ComTx write comes while a peripheral is attached, then from every state without a recorded
error the run takes one step for each input, ends in a final state, and never faults or is refused. It rests on decision
D12 (log 8), for misaligned accesses on D3 (log 10), for writes to read-only registers on D10 (log 12), and the inbox is
the model's own (log 1). -/
def Obligations.BootRuleRunsToAFinalState : Prop :=
  ∀ s : State, s.faulted = none → bootRule s.xfer.isSome s.inbox = true →
    ∃ t, Host.Core.run Sys2Proof.core s.inbox.length s = .next t ∧ t.Final

/-- The boot rule step by step: from every state in which no error is recorded and the waiting inputs obey the boot rule,
a step answers a next state in which both hold again, with the oldest input taken off. It rests on decision D12 (log 8),
for misaligned accesses on D3 (log 10) and for writes to read-only registers on D10 (log 12); the inbox (log 1) and the
idle step when nothing waits (log 2) are the model's own. -/
def Obligations.BootRuleIsKeptByEveryStep : Prop :=
  ∀ s : State, s.faulted = none → bootRule s.xfer.isSome s.inbox = true →
    ∃ t, step s = .next t ∧ t.faulted = none ∧ bootRule t.xfer.isSome t.inbox = true ∧ t.inbox = s.inbox.drop 1

/-- Repeating a write to ComControl, ComEvPending or ComEvEnable with the same data leaves the same state, in every state
(20_memory section 3, derived there). -/
def Obligations.ControlAndEventWritesAreIdempotent : Prop :=
  ∀ (w : Word) (s : State) (i : Instr), i = .wrControl w ∨ i = .wrEvPending w ∨ i = .wrEvEnable w →
    ∃ t, exec i s = .next t ∧ exec i t = .next t

/-- The source's scenario (95_test_vectors W9) from every quiet state with an echo peripheral, the event not yet pending
and its enable 0, for every value written: no interrupt before it is enabled, one when it is, none after the
acknowledge. That the ComTx write completes rests on decision D12 (log 8). -/
def Obligations.SendEnableAcknowledgeScenario : Prop :=
  ∀ (s : State) (w : Word), s.com.Quiet → s.com.intPending = false → s.com.intEnable = false → s.xfer = some .echo →
    ∃ t₁ t₂ t₃,
      execAll [.wrControl 1, .wrTx w] s = .next t₁ ∧ t₁.com.rx.toNat = w.toNat % 65536 ∧
      t₁.com.intPending = true ∧ irqLine t₁ = false ∧
      exec (.wrEvEnable 1) t₁ = .next t₂ ∧ irqLine t₂ = true ∧
      exec (.wrEvPending 1) t₂ = .next t₃ ∧ t₃.com.intPending = false ∧ irqLine t₃ = false
end

