-- ==== Sys2Proof/Laws/Decode.lean ====
section
/-! SUPPORT. The request word and its two fields (R57), and when an access is accepted (R40, R43). -/

namespace Sys2Proof

/-- The direction packed into a request word is read back. -/
@[simp] theorem reqIsWrite_reqWord (isWrite : Bool) (off : Offset) : reqIsWrite (reqWord isWrite off) = isWrite := by
  revert isWrite off; decide

/-- The offset packed into a request word is read back. -/
@[simp] theorem reqOffset_reqWord (isWrite : Bool) (off : Offset) : reqOffset (reqWord isWrite off) = off := by
  revert isWrite off; decide

/-- A request word is its two fields. -/
theorem reqWord_eta (req : ReqWord) : reqWord (reqIsWrite req) (reqOffset req) = req := by
  revert req; decide

/-- The write at the same offset class as a read, with an operand; a write is left as it is. -/
def withOperand (w : Word) : Instr → Instr
  | .rdTx => .wrTx w
  | .rdRx => .wrRx w
  | .rdControl => .wrControl w
  | .rdStatus => .wrStatus w
  | .rdEvStatus => .wrEvStatus w
  | .rdEvPending => .wrEvPending w
  | .rdEvEnable => .wrEvEnable w
  | .rdUnmapped1C => .wrUnmapped1C w
  | .rdUnmapped20 off => .wrUnmapped20 off w
  | .rdUnmapped40 off => .wrUnmapped40 off w
  | .rdUnmapped80 off => .wrUnmapped80 off w
  | .rdMisalignedOdd off => .wrMisalignedOdd off w
  | .rdMisalignedHalf off => .wrMisalignedHalf off w
  | i => i

/-- Reads and writes classify an offset alike (R38): a fact about `decodeRead` on the 256 offsets carries over. -/
theorem decodeWrite_eq_withOperand (off : Offset) (w : Word) : decodeWrite off w = withOperand w (decodeRead off) := by
  unfold decodeRead decodeWrite
  simp only [apply_ite (withOperand w)]
  rfl

/-- Decode of an accepted access (R58). -/
theorem decode_of_accepted {r : BusRequest} (hb : r.bytes = 4) (ho : r.offset < 256) :
    decode r = .ok (decodeWord (reqWord r.isWrite (BitVec.ofNat 8 r.offset)) r.wdata) := by
  simp [decode, hb, Nat.not_le.mpr ho]

/-- An access of another width is refused by name (R43). -/
theorem decode_notDoubleWord {r : BusRequest} (hb : r.bytes ≠ 4) : decode r = .error .notDoubleWord := by
  simp [decode, hb]

/-- An access outside the window is refused by name (R40). -/
theorem decode_outside {r : BusRequest} (hb : r.bytes = 4) (ho : 256 ≤ r.offset) :
    decode r = .error .offsetOutsideWindow := by
  simp [decode, hb, ho]

end Sys2Proof
end

