-- ==== Sys2Proof/Laws/State.lean ====
section
/-! SUPPORT. What each named update of the state and of the block's fields does to each field, true by unfolding it
once; later proofs cite these and do not unfold the updates. -/

namespace Sys2Proof.Machine

/-! ### `transmit` (R88) -/

@[simp] theorem transmit_com (p : Peripheral) (b : Byte) (s : State) : (transmit p b s).com = s.com := rfl
@[simp] theorem transmit_xfer (p : Peripheral) (b : Byte) (s : State) : (transmit p b s).xfer = some (afterCall p) := rfl
@[simp] theorem transmit_transfers (p : Peripheral) (b : Byte) (s : State) : (transmit p b s).transfers = s.transfers ++ [{ sent := b, reply := replyOf p s.draws b }] := rfl
@[simp] theorem transmit_draws (p : Peripheral) (b : Byte) (s : State) : (transmit p b s).draws = s.draws + drawsOf p := rfl
@[simp] theorem transmit_inbox (p : Peripheral) (b : Byte) (s : State) : (transmit p b s).inbox = s.inbox := rfl
@[simp] theorem transmit_answer (p : Peripheral) (b : Byte) (s : State) : (transmit p b s).answer = s.answer := rfl
@[simp] theorem transmit_faulted (p : Peripheral) (b : Byte) (s : State) : (transmit p b s).faulted = s.faulted := rfl

/-! ### `applyReset` (R117, R120) -/

@[simp] theorem applyReset_com (s : State) : (applyReset s).com = resetFields s.com := rfl
@[simp] theorem applyReset_xfer (s : State) : (applyReset s).xfer = s.xfer := rfl
@[simp] theorem applyReset_transfers (s : State) : (applyReset s).transfers = s.transfers := rfl
@[simp] theorem applyReset_draws (s : State) : (applyReset s).draws = s.draws := rfl
@[simp] theorem applyReset_inbox (s : State) : (applyReset s).inbox = s.inbox := rfl
@[simp] theorem applyReset_answer (s : State) : (applyReset s).answer = .silent := rfl
@[simp] theorem applyReset_faulted (s : State) : (applyReset s).faulted = s.faulted := rfl

/-! ### `applyAttach` (R112) -/

@[simp] theorem applyAttach_com (p : Peripheral) (s : State) : (applyAttach p s).com = s.com := rfl
@[simp] theorem applyAttach_xfer (p : Peripheral) (s : State) : (applyAttach p s).xfer = some p := rfl
@[simp] theorem applyAttach_transfers (p : Peripheral) (s : State) : (applyAttach p s).transfers = s.transfers := rfl
@[simp] theorem applyAttach_draws (p : Peripheral) (s : State) : (applyAttach p s).draws = s.draws := rfl
@[simp] theorem applyAttach_inbox (p : Peripheral) (s : State) : (applyAttach p s).inbox = s.inbox := rfl
@[simp] theorem applyAttach_answer (p : Peripheral) (s : State) : (applyAttach p s).answer = .silent := rfl
@[simp] theorem applyAttach_faulted (p : Peripheral) (s : State) : (applyAttach p s).faulted = s.faulted := rfl

/-! ### `applyDetach` (R112) -/

@[simp] theorem applyDetach_com (s : State) : (applyDetach s).com = s.com := rfl
@[simp] theorem applyDetach_xfer (s : State) : (applyDetach s).xfer = none := rfl
@[simp] theorem applyDetach_transfers (s : State) : (applyDetach s).transfers = s.transfers := rfl
@[simp] theorem applyDetach_draws (s : State) : (applyDetach s).draws = s.draws := rfl
@[simp] theorem applyDetach_inbox (s : State) : (applyDetach s).inbox = s.inbox := rfl
@[simp] theorem applyDetach_answer (s : State) : (applyDetach s).answer = .silent := rfl
@[simp] theorem applyDetach_faulted (s : State) : (applyDetach s).faulted = s.faulted := rfl

/-! ### `placeNext` (log 14) -/

@[simp] theorem placeNext_com (input : Input) (s : State) : (placeNext input s).com = s.com := rfl
@[simp] theorem placeNext_xfer (input : Input) (s : State) : (placeNext input s).xfer = s.xfer := rfl
@[simp] theorem placeNext_transfers (input : Input) (s : State) : (placeNext input s).transfers = s.transfers := rfl
@[simp] theorem placeNext_draws (input : Input) (s : State) : (placeNext input s).draws = s.draws := rfl
@[simp] theorem placeNext_inbox (input : Input) (s : State) : (placeNext input s).inbox = input :: s.inbox := rfl
@[simp] theorem placeNext_answer (input : Input) (s : State) : (placeNext input s).answer = s.answer := rfl
@[simp] theorem placeNext_faulted (input : Input) (s : State) : (placeNext input s).faulted = s.faulted := rfl

/-! ### `deliver` (R50) -/

@[simp] theorem deliver_com (input : Input) (s : State) : (deliver input s).com = s.com := rfl
@[simp] theorem deliver_xfer (input : Input) (s : State) : (deliver input s).xfer = s.xfer := rfl
@[simp] theorem deliver_transfers (input : Input) (s : State) : (deliver input s).transfers = s.transfers := rfl
@[simp] theorem deliver_draws (input : Input) (s : State) : (deliver input s).draws = s.draws := rfl
@[simp] theorem deliver_inbox (input : Input) (s : State) : (deliver input s).inbox = s.inbox ++ [input] := rfl
@[simp] theorem deliver_answer (input : Input) (s : State) : (deliver input s).answer = s.answer := rfl
@[simp] theorem deliver_faulted (input : Input) (s : State) : (deliver input s).faulted = s.faulted := rfl

/-! ### `resetFields` (R117) -/

@[simp] theorem resetFields_intEna (c : ComState) : (resetFields c).intEna = c.intEna := rfl
@[simp] theorem resetFields_autoHold (c : ComState) : (resetFields c).autoHold = c.autoHold := rfl
@[simp] theorem resetFields_rx (c : ComState) : (resetFields c).rx = c.rx := rfl
@[simp] theorem resetFields_intStatus (c : ComState) : (resetFields c).intStatus = false := rfl
@[simp] theorem resetFields_holdStatus (c : ComState) : (resetFields c).holdStatus = false := rfl
@[simp] theorem resetFields_intPending (c : ComState) : (resetFields c).intPending = false := rfl
@[simp] theorem resetFields_holdPending (c : ComState) : (resetFields c).holdPending = false := rfl
@[simp] theorem resetFields_intEnable (c : ComState) : (resetFields c).intEnable = false := rfl
@[simp] theorem resetFields_holdEnable (c : ComState) : (resetFields c).holdEnable = false := rfl

/-! ### `raiseInt` (R92) -/

@[simp] theorem raiseInt_intEna (c : ComState) : (raiseInt c).intEna = c.intEna := rfl
@[simp] theorem raiseInt_autoHold (c : ComState) : (raiseInt c).autoHold = c.autoHold := rfl
@[simp] theorem raiseInt_rx (c : ComState) : (raiseInt c).rx = c.rx := rfl
@[simp] theorem raiseInt_intStatus (c : ComState) : (raiseInt c).intStatus = true := rfl
@[simp] theorem raiseInt_holdStatus (c : ComState) : (raiseInt c).holdStatus = c.holdStatus := rfl
@[simp] theorem raiseInt_intPending (c : ComState) : (raiseInt c).intPending = c.intPending := rfl
@[simp] theorem raiseInt_holdPending (c : ComState) : (raiseInt c).holdPending = c.holdPending := rfl
@[simp] theorem raiseInt_intEnable (c : ComState) : (raiseInt c).intEnable = c.intEnable := rfl
@[simp] theorem raiseInt_holdEnable (c : ComState) : (raiseInt c).holdEnable = c.holdEnable := rfl

/-! ### `dropInt` (R92) -/

@[simp] theorem dropInt_intEna (c : ComState) : (dropInt c).intEna = c.intEna := rfl
@[simp] theorem dropInt_autoHold (c : ComState) : (dropInt c).autoHold = c.autoHold := rfl
@[simp] theorem dropInt_rx (c : ComState) : (dropInt c).rx = c.rx := rfl
@[simp] theorem dropInt_intStatus (c : ComState) : (dropInt c).intStatus = false := rfl
@[simp] theorem dropInt_holdStatus (c : ComState) : (dropInt c).holdStatus = c.holdStatus := rfl
@[simp] theorem dropInt_intPending (c : ComState) : (dropInt c).intPending = c.intPending := rfl
@[simp] theorem dropInt_holdPending (c : ComState) : (dropInt c).holdPending = c.holdPending := rfl
@[simp] theorem dropInt_intEnable (c : ComState) : (dropInt c).intEnable = c.intEnable := rfl
@[simp] theorem dropInt_holdEnable (c : ComState) : (dropInt c).holdEnable = c.holdEnable := rfl

/-! ### `storeControl` (R81) -/

@[simp] theorem storeControl_intEna (w : Word) (c : ComState) : (storeControl w c).intEna = bit0 w := rfl
@[simp] theorem storeControl_autoHold (w : Word) (c : ComState) : (storeControl w c).autoHold = bit1 w := rfl
@[simp] theorem storeControl_rx (w : Word) (c : ComState) : (storeControl w c).rx = c.rx := rfl
@[simp] theorem storeControl_intStatus (w : Word) (c : ComState) : (storeControl w c).intStatus = c.intStatus := rfl
@[simp] theorem storeControl_holdStatus (w : Word) (c : ComState) : (storeControl w c).holdStatus = c.holdStatus := rfl
@[simp] theorem storeControl_intPending (w : Word) (c : ComState) : (storeControl w c).intPending = c.intPending := rfl
@[simp] theorem storeControl_holdPending (w : Word) (c : ComState) : (storeControl w c).holdPending = c.holdPending := rfl
@[simp] theorem storeControl_intEnable (w : Word) (c : ComState) : (storeControl w c).intEnable = c.intEnable := rfl
@[simp] theorem storeControl_holdEnable (w : Word) (c : ComState) : (storeControl w c).holdEnable = c.holdEnable := rfl

/-! ### `storeEvStatus` (R83) -/

@[simp] theorem storeEvStatus_intEna (w : Word) (c : ComState) : (storeEvStatus w c).intEna = c.intEna := rfl
@[simp] theorem storeEvStatus_autoHold (w : Word) (c : ComState) : (storeEvStatus w c).autoHold = c.autoHold := rfl
@[simp] theorem storeEvStatus_rx (w : Word) (c : ComState) : (storeEvStatus w c).rx = c.rx := rfl
@[simp] theorem storeEvStatus_intStatus (w : Word) (c : ComState) : (storeEvStatus w c).intStatus = c.intStatus := rfl
@[simp] theorem storeEvStatus_holdStatus (w : Word) (c : ComState) : (storeEvStatus w c).holdStatus = c.holdStatus := rfl
@[simp] theorem storeEvStatus_intPending (w : Word) (c : ComState) : (storeEvStatus w c).intPending = c.intPending := rfl
@[simp] theorem storeEvStatus_holdPending (w : Word) (c : ComState) : (storeEvStatus w c).holdPending = c.holdPending := rfl
@[simp] theorem storeEvStatus_intEnable (w : Word) (c : ComState) : (storeEvStatus w c).intEnable = c.intEnable := rfl
@[simp] theorem storeEvStatus_holdEnable (w : Word) (c : ComState) : (storeEvStatus w c).holdEnable = c.holdEnable := rfl

/-! ### `storeEvPending` (R84) -/

@[simp] theorem storeEvPending_intEna (w : Word) (c : ComState) : (storeEvPending w c).intEna = c.intEna := rfl
@[simp] theorem storeEvPending_autoHold (w : Word) (c : ComState) : (storeEvPending w c).autoHold = c.autoHold := rfl
@[simp] theorem storeEvPending_rx (w : Word) (c : ComState) : (storeEvPending w c).rx = c.rx := rfl
@[simp] theorem storeEvPending_intStatus (w : Word) (c : ComState) : (storeEvPending w c).intStatus = c.intStatus := rfl
@[simp] theorem storeEvPending_holdStatus (w : Word) (c : ComState) : (storeEvPending w c).holdStatus = c.holdStatus := rfl
@[simp] theorem storeEvPending_intPending (w : Word) (c : ComState) : (storeEvPending w c).intPending = (c.intPending && !bit0 w) := rfl
@[simp] theorem storeEvPending_holdPending (w : Word) (c : ComState) : (storeEvPending w c).holdPending = (c.holdPending && !bit1 w) := rfl
@[simp] theorem storeEvPending_intEnable (w : Word) (c : ComState) : (storeEvPending w c).intEnable = c.intEnable := rfl
@[simp] theorem storeEvPending_holdEnable (w : Word) (c : ComState) : (storeEvPending w c).holdEnable = c.holdEnable := rfl

/-! ### `storeEvEnable` (R85) -/

@[simp] theorem storeEvEnable_intEna (w : Word) (c : ComState) : (storeEvEnable w c).intEna = c.intEna := rfl
@[simp] theorem storeEvEnable_autoHold (w : Word) (c : ComState) : (storeEvEnable w c).autoHold = c.autoHold := rfl
@[simp] theorem storeEvEnable_rx (w : Word) (c : ComState) : (storeEvEnable w c).rx = c.rx := rfl
@[simp] theorem storeEvEnable_intStatus (w : Word) (c : ComState) : (storeEvEnable w c).intStatus = c.intStatus := rfl
@[simp] theorem storeEvEnable_holdStatus (w : Word) (c : ComState) : (storeEvEnable w c).holdStatus = c.holdStatus := rfl
@[simp] theorem storeEvEnable_intPending (w : Word) (c : ComState) : (storeEvEnable w c).intPending = c.intPending := rfl
@[simp] theorem storeEvEnable_holdPending (w : Word) (c : ComState) : (storeEvEnable w c).holdPending = c.holdPending := rfl
@[simp] theorem storeEvEnable_intEnable (w : Word) (c : ComState) : (storeEvEnable w c).intEnable = bit0 w := rfl
@[simp] theorem storeEvEnable_holdEnable (w : Word) (c : ComState) : (storeEvEnable w c).holdEnable = bit1 w := rfl

/-! ### `setAutoHold`, `setAnswer` (R18) -/

@[simp] theorem setAutoHold_com (b : Bool) (s : State) : (s.setAutoHold b).com = { s.com with autoHold := b } := rfl
@[simp] theorem setAutoHold_xfer (b : Bool) (s : State) : (s.setAutoHold b).xfer = s.xfer := rfl
@[simp] theorem setAutoHold_transfers (b : Bool) (s : State) : (s.setAutoHold b).transfers = s.transfers := rfl
@[simp] theorem setAutoHold_draws (b : Bool) (s : State) : (s.setAutoHold b).draws = s.draws := rfl
@[simp] theorem setAutoHold_inbox (b : Bool) (s : State) : (s.setAutoHold b).inbox = s.inbox := rfl
@[simp] theorem setAutoHold_answer (b : Bool) (s : State) : (s.setAutoHold b).answer = s.answer := rfl
@[simp] theorem setAutoHold_faulted (b : Bool) (s : State) : (s.setAutoHold b).faulted = s.faulted := rfl
@[simp] theorem setAnswer_com (a : Answer) (s : State) : (s.setAnswer a).com = s.com := rfl
@[simp] theorem setAnswer_xfer (a : Answer) (s : State) : (s.setAnswer a).xfer = s.xfer := rfl
@[simp] theorem setAnswer_transfers (a : Answer) (s : State) : (s.setAnswer a).transfers = s.transfers := rfl
@[simp] theorem setAnswer_draws (a : Answer) (s : State) : (s.setAnswer a).draws = s.draws := rfl
@[simp] theorem setAnswer_inbox (a : Answer) (s : State) : (s.setAnswer a).inbox = s.inbox := rfl
@[simp] theorem setAnswer_answer (a : Answer) (s : State) : (s.setAnswer a).answer = a := rfl
@[simp] theorem setAnswer_faulted (a : Answer) (s : State) : (s.setAnswer a).faulted = s.faulted := rfl

end Sys2Proof.Machine
end

