-- ==== Sys2Proof/Laws/Flags.lean ====
section
/-! SUPPORT. The aggregator and the pulse, each said once as an update of the fields (R89, R92, R97). -/

namespace Sys2Proof.Machine

/-- Two block states with the same nine fields are the same. -/
theorem ComState.eq_of_fields {c d : ComState} (h₁ : c.intEna = d.intEna) (h₂ : c.autoHold = d.autoHold)
    (h₃ : c.rx = d.rx) (h₄ : c.intStatus = d.intStatus) (h₅ : c.holdStatus = d.holdStatus)
    (h₆ : c.intPending = d.intPending) (h₇ : c.holdPending = d.holdPending) (h₈ : c.intEnable = d.intEnable)
    (h₉ : c.holdEnable = d.holdEnable) : c = d := by
  cases c; cases d; simp_all

/-- Step 1 of `Recompute()` as an update (R97). -/
theorem latchInt_eq (c : ComState) : latchInt c = { c with intPending := c.intPending || c.intStatus } := by
  obtain ⟨_, _, _, intStatus, _, _, _, _, _⟩ := c
  cases intStatus <;> simp [latchInt]

/-- Step 2 of `Recompute()` as an update (R97). -/
theorem latchHold_eq (c : ComState) : latchHold c = { c with holdPending := c.holdPending || c.holdStatus } := by
  obtain ⟨_, _, _, _, holdStatus, _, _, _, _⟩ := c
  cases holdStatus <;> simp [latchHold]

/-- `Recompute()`: its two latches as one update; it writes the two pending bits and nothing else (R97, R98). -/
theorem recompute_eq (c : ComState) :
    recompute c = { c with
      intPending := c.intPending || c.intStatus
      holdPending := c.holdPending || c.holdStatus } := by
  simp [recompute, latchInt_eq, latchHold_eq]

/-- In a settled state `Recompute()` changes nothing (R101). -/
theorem recompute_of_settled {c : ComState} (h : c.Settled) : recompute c = c := by
  obtain ⟨hi, hh⟩ := h
  cases c
  simp_all [recompute_eq]

/-- The pulse as one update (R89, R92). -/
theorem pulse_eq (c : ComState) :
    pulse c = { c with
      intStatus := c.intStatus && !c.intEna
      intPending := c.intPending || c.intEna
      holdPending := c.holdPending || (c.intEna && c.holdStatus) } := by
  obtain ⟨intEna, _, _, _, _, _, _, _, _⟩ := c
  cases intEna <;> simp [pulse, recompute_eq, raiseInt, dropInt]

/-- A settled block stays settled through `Recompute()` and the pulse. -/
theorem Settled_pulse {c : ComState} (h : c.Settled) : (pulse c).Settled := by
  simp [pulse_eq, ComState.Settled, h.1, h.2]

/-- Writing to ComEvStatus leaves the fields (R83). -/
theorem storeEvStatus_eq (w : Word) (c : ComState) : storeEvStatus w c = c := rfl

/-- `Tip` and `Hold` read 0 (R21, R22). -/
theorem pair_status : pair holdBit tipBit = 0 := rfl

/-- A pair image as a number: bit 1 counts two (R61). -/
theorem pair_toNat (b1 b0 : Bool) : (pair b1 b0).toNat = 2 * b1.toNat + b0.toNat := by
  cases b1 <;> cases b0 <;> rfl

/-- The bits of a pair image (R61). -/
theorem pair_getLsbD (b1 b0 : Bool) (k : Nat) :
    (pair b1 b0).getLsbD k = if k = 0 then b0 else if k = 1 then b1 else false := by
  rcases k with _ | _ | k
  · cases b1 <;> cases b0 <;> rfl
  · cases b1 <;> cases b0 <;> rfl
  · simp [pair, BitVec.getLsbD_setWidth, BitVec.getLsbD_of_ge]

/-- A 16-bit value extended to 32 bits keeps its number (R9). -/
theorem zext32_toNat (v : Half) : (zext32 v).toNat = v.toNat := by
  have := v.isLt
  simp [zext32]; omega

/-- The first byte sent, as a number (R60). -/
theorem txLo_toNat (w : Word) : (txLo w).toNat = w.toNat % 256 := by
  simp [txLo, BitVec.extractLsb'_toNat]

/-- The second byte sent, as a number (R60). -/
theorem txHi_toNat (w : Word) : (txHi w).toNat = w.toNat / 256 % 256 := by
  simp [txHi, BitVec.extractLsb'_toNat, Nat.shiftRight_eq_div_pow]

/-- The assembled replies, as a number (R91). -/
theorem assembleRx_toNat (first second : Byte) : (assembleRx first second).toNat = 256 * second.toNat + first.toNat := by
  have := first.isLt
  rw [assembleRx, BitVec.toNat_append, ← Nat.shiftLeft_add_eq_or_of_lt (by simpa using this), Nat.shiftLeft_eq]
  omega

end Sys2Proof.Machine
end

