-- ==== Sys2Proof/Laws/Ops.lean ====
section
/-! SUPPORT. One lemma for each shared operation: everything it can do, when it answers a next state. -/

namespace Sys2Proof.Machine

/-- A read's answer is the only change (R69). -/
theorem answerRead_eq_next {v : Word} {s t : State} :
    answerRead v s = .next t ↔ t = { s with answer := .rdata v } := by
  simp [answerRead, eq_comm]

/-- A write's next state: the block's new fields and the port's answer (R56). -/
theorem answerWrite_eq_next {c : ComState} {s t : State} :
    answerWrite c s = .next t ↔ t = { s with com := c, answer := .done } := by
  simp [answerWrite, eq_comm]

/-- A write without effect changes the port's answer only (R126). -/
theorem ignoreWrite_eq (s : State) : ignoreWrite s = .next { s with answer := .done } := rfl

/-- A configuration error is a next state that records it (R104, D9). -/
theorem raiseConfigError_eq (e : ConfigError) (req : ReqWord) (w : Word) (s : State) :
    raiseConfigError e req w s =
      .next { s with answer := .configError e, faulted := some { error := e, req := req, wdata := w } } := rfl

/-- An attached ComTx write, said once: its two calls, the new `rx`, the pulse (R89). -/
theorem sendBoth_eq (p : Peripheral) (w : Word) (s : State) :
    sendBoth p w s = .next { s with
      com := { s.com with
        rx := assembleRx (replyOf p s.draws (txLo w)) (replyOf (afterCall p) (s.draws + drawsOf p) (txHi w))
        intStatus := s.com.intStatus && !s.com.intEna
        intPending := s.com.intPending || s.com.intEna
        holdPending := s.com.holdPending || (s.com.intEna && s.com.holdStatus) }
      xfer := some (afterCall (afterCall p))
      transfers := s.transfers ++
        [{ sent := txLo w, reply := replyOf p s.draws (txLo w) },
         { sent := txHi w, reply := replyOf (afterCall p) (s.draws + drawsOf p) (txHi w) }]
      draws := s.draws + drawsOf p + drawsOf (afterCall p)
      answer := .done } := by
  simp [sendBoth, answerWrite, pulse_eq, transmit]

/-- WR.TX with a peripheral attached (R89). -/
theorem execWrTx_attached {w : Word} {s : State} {p : Peripheral} (h : s.xfer = some p) :
    execWrTx w s = sendBoth p w s := by
  simp [execWrTx, h]

/-- WR.TX with nothing attached (R93). -/
theorem execWrTx_unattached {w : Word} {s : State} (h : s.xfer = none) :
    execWrTx w s = .next { s with
      answer := .configError .unattachedTransferTarget
      faulted := some { error := .unattachedTransferTarget, req := encodeReq (.wrTx w), wdata := w } } := by
  simp [execWrTx, h, raiseConfigError_eq]

/-- The recorded request word of a ComTx write (R104: "req = 0x100"). -/
theorem encodeReq_wrTx (w : Word) : encodeReq (.wrTx w) = 0x100 := by
  change reqWord true 0x00 = 0x100
  decide

/-- An echo peripheral stays one, draws nothing and replies with what it is sent (R68). -/
theorem echo_calls (n : Nat) (b : Byte) : replyOf .echo n b = b ∧ afterCall .echo = .echo ∧ drawsOf .echo = 0 :=
  ⟨rfl, rfl, rfl⟩

/-- WR.EV_PENDING, said once, in every state (R84). -/
theorem execWrEvPending_eq (w : Word) (s : State) :
    execWrEvPending w s = .next { s with
      com := { s.com with
        intPending := (s.com.intPending && !bit0 w) || s.com.intStatus
        holdPending := (s.com.holdPending && !bit1 w) || s.com.holdStatus }
      answer := .done } := by
  simp [execWrEvPending, answerWrite, recompute_eq, storeEvPending, storeBit]

/-- WR.EV_ENABLE, said once, in every state (R85). -/
theorem execWrEvEnable_eq (w : Word) (s : State) :
    execWrEvEnable w s = .next { s with
      com := { s.com with
        intEnable := bit0 w
        holdEnable := bit1 w
        intPending := s.com.intPending || s.com.intStatus
        holdPending := s.com.holdPending || s.com.holdStatus }
      answer := .done } := by
  simp [execWrEvEnable, answerWrite, recompute_eq, storeEvEnable, storeBit]

end Sys2Proof.Machine
end

