-- ==== Sys2Proof/Laws/PerInstr.lean ====
section
/-! SUPPORT. The statements made for each transaction, one lemma for each constructor of Instr. Family `SelectsItsRow`:
the encoding of a well-formed transaction selects a row of the opcode map that stands for it (R62). -/

namespace Sys2Proof.Laws

/-- A well-formed transaction's request word selects a row of the opcode map, and the row's transaction, at its offset
and operand, is the transaction itself (R62). -/
def SelectsItsRow.Statement (i : Instr) : Prop :=
  i.WellFormed →
    ∃ row ∈ opcodeTable, row.selects (encodeReq i) = true ∧ row.build (encodeOffset i) (encodeData i) = i

/-- The five offset classes: an offset of the class, packed with either direction, matches the class's row. -/
theorem row_selects_class (isWrite : Bool) (off : Offset) :
    (offsetIn20 off = true → reqWord isWrite off &&& 0x1E3 = reqWord isWrite 0x20) ∧
    (offsetIn40 off = true → reqWord isWrite off &&& 0x1C3 = reqWord isWrite 0x40) ∧
    (offsetIn80 off = true → reqWord isWrite off &&& 0x183 = reqWord isWrite 0x80) ∧
    (offsetOdd off = true → reqWord isWrite off &&& 0x101 = reqWord isWrite 0x01) ∧
    (offsetHalf off = true → reqWord isWrite off &&& 0x103 = reqWord isWrite 0x02) := by
  revert isWrite off; decide

/-- RD.TX -/
theorem SelectsItsRow.rdTx : SelectsItsRow.Statement (.rdTx) := by
  intro _
  exact ⟨opcodeTable[0]'(by decide), List.getElem_mem _, rfl, rfl⟩

/-- RD.RX -/
theorem SelectsItsRow.rdRx : SelectsItsRow.Statement (.rdRx) := by
  intro _
  exact ⟨opcodeTable[1]'(by decide), List.getElem_mem _, rfl, rfl⟩

/-- RD.CONTROL -/
theorem SelectsItsRow.rdControl : SelectsItsRow.Statement (.rdControl) := by
  intro _
  exact ⟨opcodeTable[2]'(by decide), List.getElem_mem _, rfl, rfl⟩

/-- RD.STATUS -/
theorem SelectsItsRow.rdStatus : SelectsItsRow.Statement (.rdStatus) := by
  intro _
  exact ⟨opcodeTable[3]'(by decide), List.getElem_mem _, rfl, rfl⟩

/-- RD.EV_STATUS -/
theorem SelectsItsRow.rdEvStatus : SelectsItsRow.Statement (.rdEvStatus) := by
  intro _
  exact ⟨opcodeTable[4]'(by decide), List.getElem_mem _, rfl, rfl⟩

/-- RD.EV_PENDING -/
theorem SelectsItsRow.rdEvPending : SelectsItsRow.Statement (.rdEvPending) := by
  intro _
  exact ⟨opcodeTable[5]'(by decide), List.getElem_mem _, rfl, rfl⟩

/-- RD.EV_ENABLE -/
theorem SelectsItsRow.rdEvEnable : SelectsItsRow.Statement (.rdEvEnable) := by
  intro _
  exact ⟨opcodeTable[6]'(by decide), List.getElem_mem _, rfl, rfl⟩

/-- RD.UNMAPPED.1C -/
theorem SelectsItsRow.rdUnmapped1C : SelectsItsRow.Statement (.rdUnmapped1C) := by
  intro _
  exact ⟨opcodeTable[7]'(by decide), List.getElem_mem _, rfl, rfl⟩

/-- RD.UNMAPPED.20 -/
theorem SelectsItsRow.rdUnmapped20 (off : Offset) : SelectsItsRow.Statement (.rdUnmapped20 off) := by
  intro h
  refine ⟨opcodeTable[8]'(by decide), List.getElem_mem _, ?_, rfl⟩
  exact beq_iff_eq.mpr ((row_selects_class false off).1 h)

/-- RD.UNMAPPED.40 -/
theorem SelectsItsRow.rdUnmapped40 (off : Offset) : SelectsItsRow.Statement (.rdUnmapped40 off) := by
  intro h
  refine ⟨opcodeTable[9]'(by decide), List.getElem_mem _, ?_, rfl⟩
  exact beq_iff_eq.mpr ((row_selects_class false off).2.1 h)

/-- RD.UNMAPPED.80 -/
theorem SelectsItsRow.rdUnmapped80 (off : Offset) : SelectsItsRow.Statement (.rdUnmapped80 off) := by
  intro h
  refine ⟨opcodeTable[10]'(by decide), List.getElem_mem _, ?_, rfl⟩
  exact beq_iff_eq.mpr ((row_selects_class false off).2.2.1 h)

/-- RD.MISALIGNED.ODD -/
theorem SelectsItsRow.rdMisalignedOdd (off : Offset) : SelectsItsRow.Statement (.rdMisalignedOdd off) := by
  intro h
  refine ⟨opcodeTable[11]'(by decide), List.getElem_mem _, ?_, rfl⟩
  exact beq_iff_eq.mpr ((row_selects_class false off).2.2.2.1 h)

/-- RD.MISALIGNED.HALF -/
theorem SelectsItsRow.rdMisalignedHalf (off : Offset) : SelectsItsRow.Statement (.rdMisalignedHalf off) := by
  intro h
  refine ⟨opcodeTable[12]'(by decide), List.getElem_mem _, ?_, rfl⟩
  exact beq_iff_eq.mpr ((row_selects_class false off).2.2.2.2 h)

/-- WR.TX -/
theorem SelectsItsRow.wrTx (w : Word) : SelectsItsRow.Statement (.wrTx w) := by
  intro _
  exact ⟨opcodeTable[13]'(by decide), List.getElem_mem _, (by decide : (reqWord true 0x00 &&& 0x1FF == 0x100) = true), rfl⟩

/-- WR.RX -/
theorem SelectsItsRow.wrRx (w : Word) : SelectsItsRow.Statement (.wrRx w) := by
  intro _
  exact ⟨opcodeTable[14]'(by decide), List.getElem_mem _, (by decide : (reqWord true 0x04 &&& 0x1FF == 0x104) = true), rfl⟩

/-- WR.CONTROL -/
theorem SelectsItsRow.wrControl (w : Word) : SelectsItsRow.Statement (.wrControl w) := by
  intro _
  exact ⟨opcodeTable[15]'(by decide), List.getElem_mem _, (by decide : (reqWord true 0x08 &&& 0x1FF == 0x108) = true), rfl⟩

/-- WR.STATUS -/
theorem SelectsItsRow.wrStatus (w : Word) : SelectsItsRow.Statement (.wrStatus w) := by
  intro _
  exact ⟨opcodeTable[16]'(by decide), List.getElem_mem _, (by decide : (reqWord true 0x0C &&& 0x1FF == 0x10C) = true), rfl⟩

/-- WR.EV_STATUS -/
theorem SelectsItsRow.wrEvStatus (w : Word) : SelectsItsRow.Statement (.wrEvStatus w) := by
  intro _
  exact ⟨opcodeTable[17]'(by decide), List.getElem_mem _, (by decide : (reqWord true 0x10 &&& 0x1FF == 0x110) = true), rfl⟩

/-- WR.EV_PENDING -/
theorem SelectsItsRow.wrEvPending (w : Word) : SelectsItsRow.Statement (.wrEvPending w) := by
  intro _
  exact ⟨opcodeTable[18]'(by decide), List.getElem_mem _, (by decide : (reqWord true 0x14 &&& 0x1FF == 0x114) = true), rfl⟩

/-- WR.EV_ENABLE -/
theorem SelectsItsRow.wrEvEnable (w : Word) : SelectsItsRow.Statement (.wrEvEnable w) := by
  intro _
  exact ⟨opcodeTable[19]'(by decide), List.getElem_mem _, (by decide : (reqWord true 0x18 &&& 0x1FF == 0x118) = true), rfl⟩

/-- WR.UNMAPPED.1C -/
theorem SelectsItsRow.wrUnmapped1C (w : Word) : SelectsItsRow.Statement (.wrUnmapped1C w) := by
  intro _
  exact ⟨opcodeTable[20]'(by decide), List.getElem_mem _, (by decide : (reqWord true 0x1C &&& 0x1FF == 0x11C) = true), rfl⟩

/-- WR.UNMAPPED.20 -/
theorem SelectsItsRow.wrUnmapped20 (off : Offset) (w : Word) : SelectsItsRow.Statement (.wrUnmapped20 off w) := by
  intro h
  refine ⟨opcodeTable[21]'(by decide), List.getElem_mem _, ?_, rfl⟩
  exact beq_iff_eq.mpr ((row_selects_class true off).1 h)

/-- WR.UNMAPPED.40 -/
theorem SelectsItsRow.wrUnmapped40 (off : Offset) (w : Word) : SelectsItsRow.Statement (.wrUnmapped40 off w) := by
  intro h
  refine ⟨opcodeTable[22]'(by decide), List.getElem_mem _, ?_, rfl⟩
  exact beq_iff_eq.mpr ((row_selects_class true off).2.1 h)

/-- WR.UNMAPPED.80 -/
theorem SelectsItsRow.wrUnmapped80 (off : Offset) (w : Word) : SelectsItsRow.Statement (.wrUnmapped80 off w) := by
  intro h
  refine ⟨opcodeTable[23]'(by decide), List.getElem_mem _, ?_, rfl⟩
  exact beq_iff_eq.mpr ((row_selects_class true off).2.2.1 h)

/-- WR.MISALIGNED.ODD -/
theorem SelectsItsRow.wrMisalignedOdd (off : Offset) (w : Word) : SelectsItsRow.Statement (.wrMisalignedOdd off w) := by
  intro h
  refine ⟨opcodeTable[24]'(by decide), List.getElem_mem _, ?_, rfl⟩
  exact beq_iff_eq.mpr ((row_selects_class true off).2.2.2.1 h)

/-- WR.MISALIGNED.HALF -/
theorem SelectsItsRow.wrMisalignedHalf (off : Offset) (w : Word) : SelectsItsRow.Statement (.wrMisalignedHalf off w) := by
  intro h
  refine ⟨opcodeTable[25]'(by decide), List.getElem_mem _, ?_, rfl⟩
  exact beq_iff_eq.mpr ((row_selects_class true off).2.2.2.2 h)

end Sys2Proof.Laws
end

