-- ==== Sys2Proof/Laws/Step.lean ====
section
/-! SUPPORT. What a step can do, said once: each way it goes, and the inversion that later proofs use. -/

namespace Sys2Proof.Machine

/-- A machine with a recorded error runs nothing (R104). -/
theorem step_faulted {s : State} {record : FaultRecord} (h : s.faulted = some record) :
    step s = .fault (.configError record) := by
  simp [step, advance, h]

/-- A machine with no error and no input keeps its state (log 2). -/
theorem step_idle {s : State} (hf : s.faulted = none) (hi : s.inbox = []) : step s = .next s := by
  simp [step, advance, hf, hi]

/-- A machine with no error takes its oldest input (R11, R50). -/
theorem step_input {s : State} {input : Input} {rest : List Input} (hf : s.faulted = none)
    (hi : s.inbox = input :: rest) : step s = runInput input { s with inbox := rest } := by
  simp [step, advance, hf, hi]

/-- An input that is a transaction is run as that transaction (R58). -/
theorem runInput_of_transaction {input : Input} {i : Instr} (h : transactionOf input = some i) (s : State) :
    runInput input s = exec i s := by
  unfold transactionOf at h
  cases input with
  | bus r =>
    simp only [requestOf] at h
    simp only [runInput, runRequest]
    split at h <;> simp_all
  | mem isWrite addr bytes w =>
    simp only [requestOf] at h
    simp only [runInput, runMem]
    split at h
    · rename_i r hr
      simp only [runRequest]
      split at h <;> simp_all
    · cases h
  | reset => simp [requestOf] at h
  | attach p => simp [requestOf] at h
  | detach => simp [requestOf] at h

/-- The ways an input runs to a next state: a transaction, reset, attach or detach. -/
theorem runInput_cases {input : Input} {s t : State} (h : runInput input s = .next t) :
    (∃ i, transactionOf input = some i ∧ exec i s = .next t) ∨
    (input = .reset ∧ t = applyReset s) ∨
    (∃ p, input = .attach p ∧ t = applyAttach p s) ∨
    (input = .detach ∧ t = applyDetach s) := by
  cases input with
  | bus r =>
    simp only [runInput, runRequest] at h
    split at h
    · rename_i i hi
      exact .inl ⟨i, by simp [transactionOf, requestOf, hi], h⟩
    · cases h
  | mem isWrite addr bytes w =>
    simp only [runInput, runMem] at h
    split at h
    · rename_i r hr
      simp only [runRequest] at h
      split at h
      · rename_i i hi
        exact .inl ⟨i, by simp [transactionOf, requestOf, hr, hi], h⟩
      · cases h
    · cases h
  | reset => simp only [runInput, Host.Outcome.next.injEq] at h; exact .inr (.inl ⟨rfl, h.symm⟩)
  | attach p => simp only [runInput, Host.Outcome.next.injEq] at h; exact .inr (.inr (.inl ⟨p, rfl, h.symm⟩))
  | detach => simp only [runInput, Host.Outcome.next.injEq] at h; exact .inr (.inr (.inr ⟨rfl, h.symm⟩))

/-- Everything a step that answers a next state can be: nothing waited, a transaction ran, or the lifecycle did. -/
theorem step_cases {s t : State} (h : step s = .next t) :
    s.faulted = none ∧
    ((s.inbox = [] ∧ t = s) ∨
     (∃ rest i, s.nextTransaction = some i ∧ s.resetsNext = false ∧ exec i { s with inbox := rest } = .next t) ∨
     (∃ rest, s.resetsNext = true ∧ s.nextTransaction = none ∧ t = applyReset { s with inbox := rest }) ∨
     (∃ rest p, s.resetsNext = false ∧ s.nextTransaction = none ∧ t = applyAttach p { s with inbox := rest }) ∨
     (∃ rest, s.resetsNext = false ∧ s.nextTransaction = none ∧ t = applyDetach { s with inbox := rest })) := by
  have hf : s.faulted = none := by
    cases hr : s.faulted with
    | none => rfl
    | some record => rw [step_faulted hr] at h; cases h
  refine ⟨hf, ?_⟩
  cases hi : s.inbox with
  | nil =>
    rw [step_idle hf hi] at h
    cases h
    exact .inl ⟨rfl, rfl⟩
  | cons input rest =>
    rw [step_input hf hi] at h
    right
    rcases runInput_cases h with ⟨i, hti, he⟩ | ⟨rfl, ht⟩ | ⟨p, rfl, ht⟩ | ⟨rfl, ht⟩
    · refine .inl ⟨rest, i, by simp [State.nextTransaction, hi, hti], ?_, he⟩
      cases input <;> simp_all [State.resetsNext, transactionOf, requestOf]
    · exact .inr (.inl ⟨rest, by simp [State.resetsNext, hi], by simp [State.nextTransaction, hi, transactionOf, requestOf], ht⟩)
    · exact .inr (.inr (.inl ⟨rest, p, by simp [State.resetsNext, hi],
        by simp [State.nextTransaction, hi, transactionOf, requestOf], ht⟩))
    · exact .inr (.inr (.inr ⟨rest, by simp [State.resetsNext, hi],
        by simp [State.nextTransaction, hi, transactionOf, requestOf], ht⟩))

/-- The address of an offset is inside the window and is the access at that offset (R10, R37). -/
theorem windowAccess_systemAddress (isWrite : Bool) (off : Offset) (bytes : Nat) (w : Word) :
    windowAccess isWrite (systemAddress off) bytes w =
      some { isWrite := isWrite, offset := off.toNat, bytes := bytes, wdata := w } := by
  simp [windowAccess, systemAddress]

/-- The byte view of a double word loses nothing, in either lane order (R45, D5). -/
theorem lanes_injective (order : ByteOrder) (w w' : Word) (h : lanes order w = lanes order w') : w = w' := by
  have split : ∀ v : Word, v =
      v.extractLsb' 24 8 ++ v.extractLsb' 16 8 ++ v.extractLsb' 8 8 ++ v.extractLsb' 0 8 := by
    intro v
    apply BitVec.eq_of_toNat_eq
    have := v.isLt
    simp only [BitVec.toNat_append, BitVec.extractLsb'_toNat, Nat.shiftRight_eq_div_pow]
    rw [← Nat.shiftLeft_add_eq_or_of_lt (by omega), ← Nat.shiftLeft_add_eq_or_of_lt (by omega),
      ← Nat.shiftLeft_add_eq_or_of_lt (by omega)]
    simp only [Nat.shiftLeft_eq]
    omega
  rw [split w, split w']
  cases order <;> simp only [lanes, List.cons.injEq, and_true] at h <;> obtain ⟨h₁, h₂, h₃, h₄⟩ := h <;>
    rw [h₁, h₂, h₃, h₄]

end Sys2Proof.Machine
end

