-- ==== Sys2Proof/Tests/Slice0.lean ====
section
/-! SUPPORT. The model's own tests. Expected values are the spec's: the vectors of 95_test_vectors.md (RV, WV, TV, AV, XV
and W ids) and the encodings of 30_encoding R62. The last part names, for each statement with hypotheses, states and
operands that meet them. -/

namespace Sys2Proof.Tests
open Sys2Proof.Machine

/-! ### Helpers -/

/-- The state a result goes on with. -/
def nextOf : Result → Option State
  | .next s => some s
  | .fault _ => none
  | .refused _ => none

/-- The answer of the bus port after a result. -/
def answerOf (r : Result) : Option Answer := (nextOf r).map State.answer

/-- The block's fields after a result. -/
def comOf (r : Result) : Option ComState := (nextOf r).map State.com

/-- A block state from its images, as 95_test_vectors writes them: ctl, rx, st, pd, en. -/
def block (ctl : BitVec 2) (rx : Half) (st pd en : BitVec 2) : ComState :=
  { intEna := ctl.getLsbD 0, autoHold := ctl.getLsbD 1, rx := rx, intStatus := st.getLsbD 0, holdStatus := st.getLsbD 1,
    intPending := pd.getLsbD 0, holdPending := pd.getLsbD 1, intEnable := en.getLsbD 0, holdEnable := en.getLsbD 1 }

/-- A machine with a given block and attachment, nothing waiting. -/
def machine (c : ComState) (x : Option Peripheral) : State := { State.construct x with com := c }

/-- A machine with inputs waiting. -/
def waiting (c : ComState) (x : Option Peripheral) (inputs : List Input) : State := { machine c x with inbox := inputs }

/-- The start state A of the read vectors. -/
def stateA : State := machine (block 3 0xBEEF 0 1 3) none

/-- The device of TV4: replies 0xAA, then 0x55. -/
def twoReplies : Peripheral := .device 1 [0xAA, 0x55]

/-! ### Well-formedness: an ill-formed term for each check -/

theorem test_wf_refuses_rdUnmapped20 : ¬ (Instr.rdUnmapped20 0x1C).WellFormed := by decide
theorem test_wf_refuses_rdUnmapped40 : ¬ (Instr.rdUnmapped40 0x3C).WellFormed := by decide
theorem test_wf_refuses_rdUnmapped80 : ¬ (Instr.rdUnmapped80 0x81).WellFormed := by decide
theorem test_wf_refuses_rdMisalignedOdd : ¬ (Instr.rdMisalignedOdd 0x02).WellFormed := by decide
theorem test_wf_refuses_rdMisalignedHalf : ¬ (Instr.rdMisalignedHalf 0x03).WellFormed := by decide
theorem test_wf_refuses_wrUnmapped20 : ¬ (Instr.wrUnmapped20 0x40 0).WellFormed := by decide
theorem test_wf_refuses_wrUnmapped40 : ¬ (Instr.wrUnmapped40 0x80 0).WellFormed := by decide
theorem test_wf_refuses_wrUnmapped80 : ¬ (Instr.wrUnmapped80 0x7C 0).WellFormed := by decide
theorem test_wf_refuses_wrMisalignedOdd : ¬ (Instr.wrMisalignedOdd 0xFE 0).WellFormed := by decide
theorem test_wf_refuses_wrMisalignedHalf : ¬ (Instr.wrMisalignedHalf 0x14 0).WellFormed := by decide
theorem test_wf_accepts_class_ends :
    (Instr.rdUnmapped20 0x20).WellFormed ∧ (Instr.rdUnmapped20 0x3C).WellFormed ∧ (Instr.rdUnmapped40 0x7C).WellFormed ∧
    (Instr.wrUnmapped80 0xFC 0).WellFormed ∧ (Instr.wrMisalignedOdd 0xFF 0).WellFormed ∧
    (Instr.rdMisalignedHalf 0xFE).WellFormed := by decide

/-! ### Decoding: a request word of every row, bit by bit from R62 -/

theorem test_decode_mapped_reads :
    decodeWord 0b000000000 0 = .rdTx ∧ decodeWord 0b000000100 0 = .rdRx ∧ decodeWord 0b000001000 0 = .rdControl ∧
    decodeWord 0b000001100 0 = .rdStatus ∧ decodeWord 0b000010000 0 = .rdEvStatus ∧
    decodeWord 0b000010100 0 = .rdEvPending ∧ decodeWord 0b000011000 0 = .rdEvEnable := by decide

theorem test_decode_unmapped_reads :
    decodeWord 0b000011100 0 = .rdUnmapped1C ∧ decodeWord 0b000100000 0 = .rdUnmapped20 0x20 ∧
    decodeWord 0b001111100 0 = .rdUnmapped40 0x7C ∧ decodeWord 0b011111100 0 = .rdUnmapped80 0xFC ∧
    decodeWord 0b000000101 0 = .rdMisalignedOdd 0x05 ∧ decodeWord 0b000010110 0 = .rdMisalignedHalf 0x16 := by decide

theorem test_decode_mapped_writes :
    decodeWord 0b100000000 7 = .wrTx 7 ∧ decodeWord 0b100000100 7 = .wrRx 7 ∧ decodeWord 0b100001000 7 = .wrControl 7 ∧
    decodeWord 0b100001100 7 = .wrStatus 7 ∧ decodeWord 0b100010000 7 = .wrEvStatus 7 ∧
    decodeWord 0b100010100 7 = .wrEvPending 7 ∧ decodeWord 0b100011000 7 = .wrEvEnable 7 := by decide

theorem test_decode_unmapped_writes :
    decodeWord 0b100011100 7 = .wrUnmapped1C 7 ∧ decodeWord 0b100111100 7 = .wrUnmapped20 0x3C 7 ∧
    decodeWord 0b101000000 7 = .wrUnmapped40 0x40 7 ∧ decodeWord 0b110000000 7 = .wrUnmapped80 0x80 7 ∧
    decodeWord 0b100010101 7 = .wrMisalignedOdd 0x15 7 ∧ decodeWord 0b100001010 7 = .wrMisalignedHalf 0x0A 7 := by decide

/-- The table's numbering: the low byte of a 16-bit word is the offset, bit 8 is `W`; a number no request word has is
refused. -/
theorem test_table_words :
    decodeTableWord 16 0x114 = some (.wrEvPending 0) ∧ decodeTableWord 16 0x0FF = some (.rdMisalignedOdd 0xFF) ∧
    decodeTableWord 16 0x200 = none := by decide

theorem test_decode_refuses_by_name :
    decode { isWrite := true, offset := 0, bytes := 2, wdata := 0 } = .error .notDoubleWord ∧
    decode { isWrite := false, offset := 0x100, bytes := 4, wdata := 0 } = .error .offsetOutsideWindow ∧
    decode { isWrite := false, offset := 0xFF, bytes := 4, wdata := 0 } = .ok (.rdMisalignedOdd 0xFF) := by
  refine ⟨rfl, rfl, rfl⟩

/-! ### Reads (RV1 to RV17) -/

theorem test_rv1_rd_tx : answerOf (exec .rdTx stateA) = some (.rdata 0) := by decide
theorem test_rv2_rd_rx : answerOf (exec .rdRx stateA) = some (.rdata 0x0000BEEF) := by decide
theorem test_rv3_rd_control : answerOf (exec .rdControl stateA) = some (.rdata 3) := by decide
theorem test_rv4_rd_status : answerOf (exec .rdStatus stateA) = some (.rdata 0) := by decide
theorem test_rv5_rd_ev_status : answerOf (exec .rdEvStatus stateA) = some (.rdata 0) := by decide
theorem test_rv6_rd_ev_pending : answerOf (exec .rdEvPending stateA) = some (.rdata 1) := by decide
theorem test_rv7_rd_ev_enable : answerOf (exec .rdEvEnable stateA) = some (.rdata 3) := by decide
theorem test_rv8_rd_1c : answerOf (exec .rdUnmapped1C stateA) = some (.rdata 0) := by decide
theorem test_rv12_rd_05 : answerOf (exec (.rdMisalignedOdd 0x05) stateA) = some (.rdata 0) := by decide
theorem test_rv16_composes_fields :
    answerOf (exec .rdEvStatus (machine (block 0 0 3 0 0) none)) = some (.rdata 3) := by decide
theorem test_rd_control_bit_places :
    answerOf (exec .rdControl (machine (block 2 0 0 0 0) none)) = some (.rdata 2) := by decide
theorem test_rv2_state_unchanged : comOf (exec .rdRx stateA) = some stateA.com := by decide

/-! ### Writes other than ComTx (WV) -/

theorem test_wv1_control : comOf (exec (.wrControl 0xFFFFFFFF) (machine (block 0 0 0 0 0) none)) = some (block 3 0 0 0 0) := by
  decide
theorem test_wv3_control : comOf (exec (.wrControl 2) (machine (block 0 0 0 0 0) none)) = some (block 2 0 0 0 0) := by decide
theorem test_wv5_rx : comOf (exec (.wrRx 0xFFFFFFFF) stateA) = some stateA.com := by decide
theorem test_wv6_status : comOf (exec (.wrStatus 3) stateA) = some stateA.com := by decide
theorem test_wv7_ev_status : comOf (exec (.wrEvStatus 3) (machine (block 0 0 0 0 0) none)) = some (block 0 0 0 0 0) := by
  decide
theorem test_wv9_ack : comOf (exec (.wrEvPending 1) (machine (block 0 0 0 3 3) none)) = some (block 0 0 0 2 3) := by decide
theorem test_wv13_ack : comOf (exec (.wrEvPending 0xFFFFFFFC) (machine (block 0 0 0 1 0) none)) = some (block 0 0 0 1 0) := by
  decide
theorem test_wv16_enable : comOf (exec (.wrEvEnable 2) (machine (block 0 0 0 1 1) none)) = some (block 0 0 0 1 2) := by decide
theorem test_wv15_irq_rises :
    (nextOf (exec (.wrEvEnable 1) (machine (block 0 0 0 1 0) none))).map irqLine = some true := by decide
theorem test_wv20_unmapped : nextOf (exec (.wrUnmapped80 0xFC 0xFFFFFFFF) stateA) = some { stateA with answer := .done } := by
  decide
theorem test_wv21_misaligned :
    comOf (exec (.wrMisalignedOdd 0x15 3) (machine (block 0 0 0 1 0) none)) = some (block 0 0 0 1 0) := by decide
theorem test_wv24_misaligned :
    comOf (exec (.wrMisalignedHalf 0x0A 3) (machine (block 0 0 0 0 0) none)) = some (block 0 0 0 0 0) := by decide

/-! ### ComTx writes (TV) -/

theorem test_tv2_pulse :
    comOf (exec (.wrTx 0x1234) (machine (block 1 0 0 0 0) (some .echo))) = some (block 1 0x1234 0 1 0) := by decide
theorem test_tv4_order :
    (nextOf (exec (.wrTx 0xFFFF0102) (machine (block 0 0 0 0 0) (some twoReplies)))).map (fun s => (s.com.rx, s.transfers)) =
      some (0x55AA, [{ sent := 0x02, reply := 0xAA }, { sent := 0x01, reply := 0x55 }]) := by decide
theorem test_tv10_unattached :
    (nextOf (exec (.wrTx 0x1234) (machine (block 1 0xBEEF 0 0 0) none))).map
        (fun s => (s.com, s.transfers, s.answer, s.faulted)) =
      some (block 1 0xBEEF 0 0 0, [], .configError .unattachedTransferTarget,
        some { error := .unattachedTransferTarget, req := 0x100, wdata := 0x1234 }) := by decide

/-! ### The aggregator and reset (AV, XV) -/

theorem test_av1_to_av4 :
    recompute (block 0 0 1 0 0) = block 0 0 1 1 0 ∧ recompute (block 0 0 2 0 0) = block 0 0 2 2 0 ∧
    recompute (block 0 0 0 3 0) = block 0 0 0 3 0 ∧ recompute (block 0 0 3 0 0) = block 0 0 3 3 0 := by decide
theorem test_irq_truth_rows :
    (block 0 0 0 2 1).irq = false ∧ (block 0 0 0 2 2).irq = true ∧ (block 0 0 0 1 2).irq = false ∧
    (block 0 0 0 1 1).irq = true := by decide
theorem test_xv1_reset : applyReset (machine (block 3 0xBEEF 0 1 3) (some .echo)) = machine (block 3 0xBEEF 0 0 0) (some .echo) := by
  decide
theorem test_xv2_reset : applyReset State.reset = State.reset := by decide

/-! ### Steps -/

theorem test_first_step_after_reset_runs_the_table_word :
    nextOf (step (State.reset.withFetchWord 16 0x118)) = nextOf (exec (.wrEvEnable 0) State.reset) := by decide
theorem test_load_delivers_in_order :
    (load [.attachEcho, .send 0x1234] State.reset).inbox = [.attach .echo, writeAt 0x00 0x1234] := by decide
theorem test_idle : nextOf (step State.reset) = some State.reset := by decide

/-! ### Witnesses: each statement's hypotheses are met -/

/-- A settled block with both sources pending, `int_ena` and both enables at 1: the line is high. -/
def busy : ComState := block 1 0xBEEF 0 3 3

theorem witness_unmapped_boundaries :
    ((0x1C : Offset).toNat % 4 = 0 ∧ 0x1C ≤ (0x1C : Offset).toNat) ∧
    ((0xFC : Offset).toNat % 4 = 0 ∧ 0x1C ≤ (0xFC : Offset).toNat) := by decide
theorem witness_misaligned_boundaries :
    (0x01 : Offset).toNat % 4 ≠ 0 ∧ (0x1B : Offset).toNat % 4 ≠ 0 ∧ (0xFF : Offset).toNat % 4 ≠ 0 := by decide
theorem witness_read : Instr.rdRx.isRead = true ∧ (Instr.rdMisalignedOdd 0xFF).isRead = true := by decide
theorem witness_settled : busy.Settled ∧ (block 0 0 0 0 0).Settled := by
  refine ⟨⟨?_, ?_⟩, ⟨?_, ?_⟩⟩ <;> decide
theorem witness_quiet : (block 3 0xBEEF 0 1 3).Quiet := by refine ⟨⟨?_, ?_⟩, ?_⟩ <;> decide
theorem witness_tx_completes :
    nextOf (exec (.wrTx 0x1234) (machine busy (some .echo))) ≠ none ∧
    nextOf (exec (.wrTx 0x1234) (machine busy none)) ≠ none := by decide
theorem witness_tx_attached :
    (machine busy (some .echo)).xfer = some .echo ∧ busy.intEna = true ∧ busy.intPending = true ∧
    (machine busy none).xfer = none := by decide
theorem witness_tx_without_int_ena :
    (block 0 0 0 1 1).intEna = false ∧ nextOf (exec (.wrTx 1) (machine (block 0 0 0 1 1) (some .echo))) ≠ none := by decide
theorem witness_ack_bit : (1 : Word).getLsbD 0 = true ∧ (1 : Word).getLsbD 1 = false := by decide
theorem witness_same_low_bits :
    (0x80000001 : Word) &&& 3 = 0x00000005 &&& 3 ∧ (0x80001234 : Word) &&& 0xFFFF = 0x00001234 &&& 0xFFFF := by decide

/-- Steps that change the enables, `int_ena` and `auto_hold`, and take them away. -/
theorem witness_writer_steps :
    (nextOf (step (waiting busy none [lineInput (.enable 0)]))).map (fun t => t.com.intEnable) = some false ∧
    (nextOf (step (waiting busy none [lineInput (.ctrl 2)]))).map (fun t => (t.com.intEna, t.com.autoHold)) =
      some (false, true) ∧
    (nextOf (step (waiting busy none [.reset]))).map (fun t => t.com.intEnable) = some false := by decide

/-- Steps that set and clear the pending bits. -/
theorem witness_pending_steps :
    (block 1 0 0 0 0).Settled ∧
    (nextOf (step (waiting (block 1 0 0 0 0) (some .echo) [lineInput (.send 1)]))).map (fun t => t.com.intPending) =
      some true ∧
    (nextOf (step (waiting busy none [lineInput (.ack 3)]))).map (fun t => (t.com.intPending, t.com.holdPending)) =
      some (false, false) ∧
    (nextOf (step (waiting busy none [.reset]))).map (fun t => (t.com.intPending, t.com.holdPending)) =
      some (false, false) := by
  refine ⟨⟨?_, ?_⟩, ?_, ?_, ?_⟩ <;> decide

/-- Steps from a state with both status bits at 1 (built directly). -/
theorem witness_status_steps :
    (nextOf (step (waiting (block 1 0 3 0 0) (some .echo) [lineInput (.send 1)]))).map
        (fun t => (t.com.intStatus, t.com.holdStatus)) = some (false, true) ∧
    (nextOf (step (waiting (block 1 0 3 0 0) none [.reset]))).map (fun t => (t.com.intStatus, t.com.holdStatus)) =
      some (false, false) := by decide

theorem witness_lifecycle_inputs :
    (waiting busy none [.reset]).faulted = none ∧ (waiting busy none [.reset]).inbox = .reset :: [] ∧
    (waiting busy none [.attach .echo]).inbox = .attach .echo :: [] ∧
    (waiting busy none [.detach]).inbox = .detach :: [] := by decide
theorem witness_decoded_access :
    decode { isWrite := false, offset := 4, bytes := 4, wdata := 0 } = .ok .rdRx ∧
    (waiting busy none [readAt 0x04]).faulted = none := ⟨rfl, rfl⟩
theorem witness_system_bus :
    (waiting busy none [.mem false (systemAddress 0xFF) 4 0]).inbox = .mem false (systemAddress 0xFF) 4 0 :: [] ∧
    (waiting busy none [.mem false (systemAddress 0xFF + 1) 4 0]).inbox = .mem false (systemAddress 0xFF + 1) 4 0 :: [] ∧
    systemAddress 0xFF < systemAddress 0xFF + 1 := by
  refine ⟨rfl, rfl, ?_⟩
  omega
/-- An address below the window exists wherever the base is not 0; `COM_BASE` is open, so no numeral can be shown. -/
theorem witness_below_the_base (h : 0 < Config.comBase) :
    (waiting busy none [.mem false 0 4 0]).inbox = .mem false 0 4 0 :: [] ∧ 0 < systemAddress 0 := by
  refine ⟨rfl, ?_⟩
  simpa [systemAddress] using h

theorem witness_foreign_accesses :
    (∀ r : BusRequest, (waiting busy none [.bus r]).faulted = none ∧ (waiting busy none [.bus r]).inbox = .bus r :: []) ∧
    (BusRequest.mk false 0 2 0).bytes ≠ 4 ∧
    (BusRequest.mk false 0x100 4 0).bytes = 4 ∧ 256 ≤ (BusRequest.mk false 0x100 4 0).offset ∧
    (BusRequest.mk false 0xFF 4 0).bytes = 4 ∧ (BusRequest.mk false 0xFF 4 0).offset < 256 :=
  ⟨fun _ => ⟨rfl, rfl⟩, by decide⟩
theorem witness_unattached_send :
    (waiting busy none [writeAt 0x00 0x1234]).xfer = none ∧
    (waiting busy none [writeAt 0x00 0x1234]).inbox =
      .bus { isWrite := true, offset := 0, bytes := 4, wdata := 0x1234 } :: [] ∧
    (nextOf (step (waiting busy none [writeAt 0x00 0x1234]))).map State.faulted =
      some (some { error := .unattachedTransferTarget, req := 0x100, wdata := 0x1234 }) := by decide
theorem witness_idle : State.reset.inbox = [] ∧ State.reset.faulted = none := by decide
theorem witness_well_formed : (Instr.wrMisalignedHalf 0xFE 5).WellFormed ∧ (Instr.wrTx 5).WellFormed := by decide
theorem witness_not_tx : ∀ w, Instr.wrEvPending 1 ≠ .wrTx w := by intro w h; cases h
theorem witness_invariants_and_step :
    State.reset.com.Quiet ∧ State.reset.RxHoldsLastReplies ∧ State.reset.RecordIsOfTx ∧ nextOf (step State.reset) ≠ none := by
  refine ⟨⟨⟨rfl, rfl⟩, rfl⟩, rfl, ?_, by decide⟩
  intro record h; cases h

/-- The line falls by an acknowledge, a disable and a reset. -/
theorem witness_line_falls :
    irqLine (machine busy none) = true ∧
    (nextOf (step (waiting busy none [lineInput (.ack 3)]))).map irqLine = some false ∧
    (nextOf (step (waiting busy none [lineInput (.enable 0)]))).map irqLine = some false ∧
    (nextOf (step (waiting busy none [.reset]))).map irqLine = some false := by decide

/-- The line rises by a ComTx write and by enabling a stale event. -/
theorem witness_line_rises :
    (nextOf (step (waiting (block 1 0 0 0 1) (some .echo) [lineInput (.send 1)]))).map irqLine = some true ∧
    (nextOf (step (waiting (block 1 0 0 1 0) none [lineInput (.enable 1)]))).map irqLine = some true ∧
    irqLine (machine (block 1 0 0 0 1) none) = false ∧ irqLine (machine (block 1 0 0 1 0) none) = false := by decide

/-- The source's scenario as inputs meets the boot rule from construction; a send before any attachment does not. -/
theorem witness_boot_rule :
    bootRule false (load [.attachEcho, .ctrl 1, .send 0x1234, .rd (.reg .rx), .enable 1, .ackInt] State.reset).inbox = true ∧
    bootRule false (load [.send 0x1234] State.reset).inbox = false := by decide

/-- The scenario's start: quiet, nothing pending, the enable at 0, an echo peripheral attached. -/
theorem witness_scenario :
    (block 0 0 0 0 0).Quiet ∧ (block 0 0 0 0 0).intPending = false ∧ (block 0 0 0 0 0).intEnable = false ∧
    (machine (block 0 0 0 0 0) (some .echo)).xfer = some .echo := by
  refine ⟨⟨⟨?_, ?_⟩, ?_⟩, ?_, ?_, ?_⟩ <;> decide

end Sys2Proof.Tests
end

section
/-! PROOFS. What a transaction and a step can do to the block's nine fields, said once; then the statements on the
enables (R26) and on `auto_hold` (R18). -/

namespace Sys2Proof.Machine

/-! ### The transactions that write the block's fields -/

/-- Transaction `i`, run on fields `c` with `x` attached, stores fields `d`: the four ways a bus access writes the block
(R81, R84, R85, R89). -/
inductive FieldWrite (c : ComState) (x : Option Peripheral) (i : Instr) (d : ComState) : Prop where
  | control (w : Word) (hi : i = .wrControl w) (hd : d = storeControl w c)
  | evPending (w : Word) (hi : i = .wrEvPending w) (hd : d = recompute (storeEvPending w c))
  | evEnable (w : Word) (hi : i = .wrEvEnable w) (hd : d = recompute (storeEvEnable w c))
  | tx (w : Word) (rx : Half) (hi : i = .wrTx w) (hx : x ≠ none) (hd : d = pulse { c with rx := rx })

/-- A transaction leaves the fields or writes them in one of the four ways. -/
theorem exec_com_cases {i : Instr} {s t : State} (h : exec i s = .next t) :
    t.com = s.com ∨ FieldWrite s.com s.xfer i t.com := by
  cases i with
  | wrControl w => cases h; exact .inr (.control w rfl rfl)
  | wrEvPending w => cases h; exact .inr (.evPending w rfl rfl)
  | wrEvEnable w => cases h; exact .inr (.evEnable w rfl rfl)
  | wrTx w =>
    change execWrTx w s = .next t at h
    cases hx : s.xfer with
    | none => rw [execWrTx_unattached hx] at h; cases h; exact .inl rfl
    | some p => rw [execWrTx_attached hx] at h; cases h; exact .inr (.tx w _ rfl nofun rfl)
  | _ => cases h; exact .inl rfl

/-- A step leaves the fields, writes them by the transaction it runs, or resets them. -/
theorem step_com_cases {s t : State} (h : step s = .next t) :
    t.com = s.com ∨ (∃ i, s.nextTransaction = some i ∧ FieldWrite s.com s.xfer i t.com) ∨
    (s.resetsNext = true ∧ t.com = resetFields s.com) := by
  obtain ⟨-, ⟨-, rfl⟩ | ⟨rest, i, hi, -, he⟩ | ⟨rest, hr, -, rfl⟩ | ⟨rest, p, -, -, rfl⟩ | ⟨rest, -, -, rfl⟩⟩ :=
    step_cases h
  · exact .inl rfl
  · exact (exec_com_cases he).imp_right fun hw => .inl ⟨i, hi, hw⟩
  · exact .inr (.inr ⟨hr, rfl⟩)
  · exact .inl rfl
  · exact .inl rfl

/-! ### The enables (R26) -/

/-- What two stored operand bits read back as (R60, R61). -/
theorem pair_bit1_bit0 (w : Word) : pair (bit1 w) (bit0 w) = w &&& 3 := by
  have hmask : (3 : Word) = pair true true := rfl
  apply BitVec.eq_of_getLsbD_eq
  intro k _
  rw [hmask, BitVec.getLsbD_and, pair_getLsbD, pair_getLsbD]
  rcases k with _ | _ | k
  · simp [bit0]
  · simp [bit1]
  · simp

/-- The enables after a transaction's write of the fields: a ComEvEnable write stores them, the others leave them. -/
theorem FieldWrite.enables {c d : ComState} {x : Option Peripheral} {i : Instr} (h : FieldWrite c x i d) :
    (d.intEnable = c.intEnable ∧ d.holdEnable = c.holdEnable) ∨
    ∃ w, i = .wrEvEnable w ∧ d.intEnable = bit0 w ∧ d.holdEnable = bit1 w := by
  cases h with
  | control w hi hd => left; simp [hd]
  | evPending w hi hd => left; simp [hd, recompute_eq]
  | evEnable w hi hd => exact .inr ⟨w, hi, by simp [hd, recompute_eq]⟩
  | tx w rx hi hx hd => left; simp [hd, pulse_eq]

/-- A step leaves both enables, stores both by a ComEvEnable write, or clears both by reset(). -/
theorem step_enables {s t : State} (h : step s = .next t) :
    (t.com.intEnable = s.com.intEnable ∧ t.com.holdEnable = s.com.holdEnable) ∨
    (∃ w, s.nextTransaction = some (.wrEvEnable w) ∧ t.com.intEnable = bit0 w ∧ t.com.holdEnable = bit1 w) ∨
    (s.resetsNext = true ∧ t.com.intEnable = false ∧ t.com.holdEnable = false) := by
  obtain hc | ⟨i, hi, hw⟩ | ⟨hr, hc⟩ := step_com_cases h
  · simp [hc]
  · obtain hsame | ⟨w, rfl, hstored⟩ := hw.enables
    · exact .inl hsame
    · exact .inr (.inl ⟨w, hi, hstored⟩)
  · simp [hr, hc]

/-- The line is high exactly when some source is pending and enabled (R99). -/
theorem irqLine_eq_true_iff (s : State) :
    irqLine s = true ↔
      (s.com.intPending = true ∧ s.com.intEnable = true) ∨ (s.com.holdPending = true ∧ s.com.holdEnable = true) := by
  simp [irqLine, ComState.irq]

/-! ### `auto_hold` (R18) -/

/-- The aggregator neither reads nor writes `auto_hold`. -/
theorem recompute_setAutoHold (b : Bool) (c : ComState) :
    recompute { c with autoHold := b } = { recompute c with autoHold := b } := by
  simp [recompute_eq]

/-- `auto_hold` after a transaction's write of the fields: a ComControl write stores it, the others leave it. -/
theorem FieldWrite.autoHold {c d : ComState} {x : Option Peripheral} {i : Instr} (h : FieldWrite c x i d) :
    d.autoHold = c.autoHold ∨ ∃ w, i = .wrControl w ∧ d.autoHold = bit1 w := by
  cases h with
  | control w hi hd => exact .inr ⟨w, hi, by simp [hd]⟩
  | evPending w hi hd => left; simp [hd, recompute_eq]
  | evEnable w hi hd => left; simp [hd, recompute_eq]
  | tx w rx hi hx hd => left; simp [hd, pulse_eq]

/-- A step leaves `auto_hold`, reset() included, or stores it by a ComControl write. -/
theorem step_autoHold {s t : State} (h : step s = .next t) :
    t.com.autoHold = s.com.autoHold ∨ ∃ w, s.nextTransaction = some (.wrControl w) ∧ t.com.autoHold = bit1 w := by
  obtain hc | ⟨i, hi, hw⟩ | ⟨-, hc⟩ := step_com_cases h
  · simp [hc]
  · obtain hsame | ⟨w, rfl, hstored⟩ := hw.autoHold
    · exact .inl hsame
    · exact .inr ⟨w, hi, hstored⟩
  · simp [hc]

/-- A ComTx write, attached or not, does the same whatever `auto_hold` is. -/
theorem execWrTx_setAutoHold {w : Word} {s t : State} (b : Bool) (h : execWrTx w s = .next t) :
    execWrTx w (s.setAutoHold b) = .next (t.setAutoHold b) := by
  cases hx : s.xfer with
  | none =>
    rw [execWrTx_unattached hx] at h
    cases h
    exact execWrTx_unattached hx
  | some p =>
    have hx' : (s.setAutoHold b).xfer = some p := hx
    rw [execWrTx_attached hx, sendBoth_eq] at h
    cases h
    rw [execWrTx_attached hx', sendBoth_eq]
    rfl

/-- Every transaction but the two of ComControl does the same whatever `auto_hold` is, and leaves it. -/
theorem exec_setAutoHold {i : Instr} {s t : State} (b : Bool) (hr : i ≠ .rdControl) (hw : ∀ w, i ≠ .wrControl w)
    (h : exec i s = .next t) : exec i (s.setAutoHold b) = .next (t.setAutoHold b) := by
  cases i with
  | rdControl => exact absurd rfl hr
  | wrControl w => exact absurd rfl (hw w)
  | wrTx w => exact execWrTx_setAutoHold b h
  | wrEvPending w => cases h; exact congrArg (answerWrite · _) (recompute_setAutoHold b (storeEvPending w s.com))
  | wrEvEnable w => cases h; exact congrArg (answerWrite · _) (recompute_setAutoHold b (storeEvEnable w s.com))
  | _ => cases h; rfl

/-- `t'` is `t` up to `auto_hold` and, where `i` is the ComControl read, up to the port's answer. -/
def SameButAutoHold (i : Option Instr) (t t' : State) : Prop :=
  ∃ (b : Bool) (a : Answer), t' = (t.setAutoHold b).setAnswer a ∧ (i ≠ some .rdControl → a = t.answer)

/-- Machines that differ in `auto_hold` alone do so up to any transaction. -/
theorem sameButAutoHold_setAutoHold (i : Option Instr) (b : Bool) (t : State) : SameButAutoHold i t (t.setAutoHold b) :=
  ⟨b, t.answer, rfl, fun _ => rfl⟩

/-- A transaction run on two machines that differ in `auto_hold` alone. -/
theorem exec_sameButAutoHold {i : Instr} {s t : State} (b : Bool) (h : exec i s = .next t) :
    ∃ t', exec i (s.setAutoHold b) = .next t' ∧ SameButAutoHold (some i) t t' := by
  by_cases hr : i = .rdControl
  · subst hr
    cases h
    exact ⟨_, rfl, b, _, rfl, fun hne => absurd rfl hne⟩
  by_cases hw : ∃ w, i = .wrControl w
  · obtain ⟨w, rfl⟩ := hw
    cases h
    exact ⟨_, rfl, bit1 w, _, rfl, fun _ => rfl⟩
  · exact ⟨_, exec_setAutoHold b hr (not_exists.mp hw) h, sameButAutoHold_setAutoHold _ b t⟩

/-- An input taken by two machines that differ in `auto_hold` alone. -/
theorem runInput_sameButAutoHold {input : Input} {s t : State} (b : Bool) (h : runInput input s = .next t) :
    ∃ t', runInput input (s.setAutoHold b) = .next t' ∧ SameButAutoHold (transactionOf input) t t' := by
  obtain ⟨i, hi, he⟩ | ⟨rfl, rfl⟩ | ⟨p, rfl, rfl⟩ | ⟨rfl, rfl⟩ := runInput_cases h
  · rw [runInput_of_transaction hi, hi]
    exact exec_sameButAutoHold b he
  · exact ⟨_, rfl, sameButAutoHold_setAutoHold _ b _⟩
  · exact ⟨_, rfl, sameButAutoHold_setAutoHold _ b _⟩
  · exact ⟨_, rfl, sameButAutoHold_setAutoHold _ b _⟩

/-- A step of two machines that differ in `auto_hold` alone. -/
theorem step_sameButAutoHold {s t : State} (b : Bool) (h : step s = .next t) :
    ∃ t', step (s.setAutoHold b) = .next t' ∧ SameButAutoHold s.nextTransaction t t' := by
  obtain ⟨hf, -⟩ := step_cases h
  cases hi : s.inbox with
  | nil =>
    rw [step_idle hf hi] at h
    cases h
    exact ⟨_, step_idle hf hi, sameButAutoHold_setAutoHold _ b s⟩
  | cons input rest =>
    have hn : s.nextTransaction = transactionOf input := by simp [State.nextTransaction, hi]
    have hstep : step (s.setAutoHold b) = runInput input (State.setAutoHold b { s with inbox := rest }) :=
      step_input hf hi
    rw [step_input hf hi] at h
    rw [hn, hstep]
    exact runInput_sameButAutoHold b h

end Sys2Proof.Machine

namespace Sys2Proof.Proofs
open Sys2Proof.Machine

/-- Settles O19: a step's three ways to change the fields, a ComEvEnable write's stored pair read back, and the line's
definition. -/
theorem enablesHaveTwoWritersAndDriveTheLine : Obligations.EnablesHaveTwoWritersAndDriveTheLine := by
  refine ⟨fun s t h => step_enables h, fun w s => ?_, fun s => ⟨rfl, rfl⟩, irqLine_eq_true_iff⟩
  refine ⟨_, execWrEvEnable_eq w s, rfl, rfl, ?_⟩
  exact congrArg (answerRead · _) (pair_bit1_bit0 w)

/-- Settles O21: two machines that differ in `auto_hold` alone run every input alike, and of the ways a step writes the
fields only the ComControl write stores `auto_hold`. -/
theorem autoHoldIsInert : Obligations.AutoHoldIsInert := by
  refine ⟨fun s t b h => ⟨step_autoHold h, ?_⟩, fun w s => ⟨_, rfl, rfl⟩, fun s => ⟨_, rfl, pair_getLsbD _ _ 1⟩⟩
  obtain ⟨_, hstep, b', a, rfl, ha⟩ := step_sameButAutoHold b h
  exact ⟨b', a, hstep, ha, rfl⟩

end Sys2Proof.Proofs
end

section
/-! PROOFS. The rows whose offsets name no register: which offsets decode to them, and what their transactions do; then
the statement on the aligned unmapped offsets (R39). -/

namespace Sys2Proof

/-! ### Offsets that name no register (R38) -/

/-- The read rows UNMAPPED and MISALIGNED (R62). `withOperand` gives the write row of the same class. -/
def Instr.readsNoRegister : Instr → Bool
  | .rdUnmapped1C | .rdUnmapped20 _ | .rdUnmapped40 _ | .rdUnmapped80 _ => true
  | .rdMisalignedOdd _ | .rdMisalignedHalf _ => true
  | _ => false

/-- The offsets without a register are those off the double-word grid and those from 0x1c up (R38). -/
theorem decodeRead_readsNoRegister (off : Offset) :
    (decodeRead off).readsNoRegister = true ↔ off.toNat % 4 ≠ 0 ∨ 0x1C ≤ off.toNat := by
  revert off; decide

/-- A request word with the direction bit at 0 is the read of its offset (R57). -/
theorem decodeWord_read (off : Offset) (w : Word) : decodeWord (reqWord false off) w = decodeRead off := by
  simp [decodeWord]

/-- A request word with the direction bit at 1 is the write of its offset's class (R38, R57). -/
theorem decodeWord_write (off : Offset) (w : Word) :
    decodeWord (reqWord true off) w = withOperand w (decodeRead off) := by
  simp [decodeWord, decodeWrite_eq_withOperand]

end Sys2Proof

namespace Sys2Proof.Machine

/-- A read of no register answers 0 and changes nothing else (R77, R78). -/
theorem exec_of_readsNoRegister {i : Instr} (h : i.readsNoRegister = true) (s : State) :
    exec i s = .next { s with answer := .rdata 0 } := by
  cases i with
  | rdUnmapped1C => rfl
  | rdUnmapped20 | rdUnmapped40 | rdUnmapped80 => rfl
  | rdMisalignedOdd | rdMisalignedHalf => rfl
  | _ => cases h

/-- A write to no register is done without effect (R86, R87). -/
theorem exec_withOperand_of_readsNoRegister {i : Instr} (h : i.readsNoRegister = true) (w : Word) (s : State) :
    exec (withOperand w i) s = .next { s with answer := .done } := by
  cases i with
  | rdUnmapped1C => exact ignoreWrite_eq s
  | rdUnmapped20 | rdUnmapped40 | rdUnmapped80 => exact ignoreWrite_eq s
  | rdMisalignedOdd | rdMisalignedHalf => exact ignoreWrite_eq s
  | _ => cases h

end Sys2Proof.Machine

namespace Sys2Proof.Proofs
open Sys2Proof.Machine

/-- Settles O3: an offset from 0x1c up decodes to a row without a register, and the eight rows named are such rows. -/
theorem unmappedAccessesAreBenign : Obligations.UnmappedAccessesAreBenign := by
  refine ⟨fun off w s _ hlow => ?_, fun off w s => ?_⟩
  · have hrow : (decodeRead off).readsNoRegister = true := (decodeRead_readsNoRegister off).mpr (.inr hlow)
    rw [decodeWord_read, decodeWord_write]
    exact ⟨exec_of_readsNoRegister hrow s, exec_withOperand_of_readsNoRegister hrow w s,
      exec_of_readsNoRegister hrow { s with answer := .done }⟩
  · have hread {i : Instr} (h : i.readsNoRegister = true) := exec_of_readsNoRegister h s
    have hwrite {i : Instr} (h : i.readsNoRegister = true) := exec_withOperand_of_readsNoRegister h w s
    exact ⟨hread rfl, hread rfl, hread rfl, hread rfl, hwrite (i := .rdUnmapped1C) rfl,
      hwrite (i := .rdUnmapped20 off) rfl, hwrite (i := .rdUnmapped40 off) rfl, hwrite (i := .rdUnmapped80 off) rfl⟩

end Sys2Proof.Proofs
end

section
/-! PROOFS. Decode gives a well-formed transaction that encodes back to its word, so a row selects every word; the rows'
masks keep them apart, so no second one does; then the statement on the opcode map (R58, R62). -/

namespace Sys2Proof

/-! ### Decode of an offset, and the write of its class (R38) -/

@[simp] theorem wf_decodeRead (off : Offset) : (decodeRead off).wf = true := by
  revert off; decide

@[simp] theorem isRead_decodeRead (off : Offset) : (decodeRead off).isRead = true := by
  revert off; decide

@[simp] theorem encodeOffset_decodeRead (off : Offset) : encodeOffset (decodeRead off) = off := by
  revert off; decide

@[simp] theorem wf_withOperand (w : Word) (i : Instr) : (withOperand w i).wf = i.wf := by
  cases i <;> rfl

@[simp] theorem isRead_withOperand (w : Word) (i : Instr) : (withOperand w i).isRead = false := by
  cases i <;> rfl

@[simp] theorem encodeOffset_withOperand (w : Word) (i : Instr) : encodeOffset (withOperand w i) = encodeOffset i := by
  cases i <;> rfl

@[simp] theorem encodeData_decodeRead (off : Offset) : encodeData (decodeRead off) = 0 := by
  revert off; decide

/-- The write of a read's class carries the operand (R57). -/
@[simp] theorem encodeData_withOperand {i : Instr} (h : i.isRead = true) (w : Word) :
    encodeData (withOperand w i) = w := by
  cases i with
  | rdTx | rdRx | rdControl | rdStatus | rdEvStatus | rdEvPending | rdEvEnable => rfl
  | rdUnmapped1C | rdUnmapped20 | rdUnmapped40 | rdUnmapped80 | rdMisalignedOdd | rdMisalignedHalf => rfl
  | _ => cases h

/-! ### Decode of a request word -/

/-- A property of every word is one of the reads and of the writes of every offset (R57). -/
theorem reqWord_induction {P : ReqWord → Prop} (hread : ∀ off, P (reqWord false off)) (hwrite : ∀ off, P (reqWord true off))
    (req : ReqWord) : P req := by
  rw [← reqWord_eta req]
  cases reqIsWrite req with
  | false => exact hread _
  | true => exact hwrite _

/-- Decode gives transactions of the opcode map only (R58). -/
theorem wf_decodeWord (req : ReqWord) (w : Word) : (decodeWord req w).wf = true := by
  induction req using reqWord_induction with
  | hread off => simp [decodeWord_read]
  | hwrite off => simp [decodeWord_write]

/-- The direction bit is the transaction's direction (R57). -/
theorem isRead_decodeWord (req : ReqWord) (w : Word) : (decodeWord req w).isRead = !reqIsWrite req := by
  induction req using reqWord_induction with
  | hread off => simp [decodeWord_read]
  | hwrite off => simp [decodeWord_write]

/-- The transaction is issued at the word's offset (R57). -/
theorem encodeOffset_decodeWord (req : ReqWord) (w : Word) : encodeOffset (decodeWord req w) = reqOffset req := by
  induction req using reqWord_induction with
  | hread off => simp [decodeWord_read]
  | hwrite off => simp [decodeWord_write]

/-- Decode loses nothing of the request word (R57, D2). -/
theorem encodeReq_decodeWord (req : ReqWord) (w : Word) : encodeReq (decodeWord req w) = req := by
  rw [encodeReq, isRead_decodeWord, encodeOffset_decodeWord, Bool.not_not, reqWord_eta]

/-- The operand is kept by a write and not looked at by a read (R57). -/
theorem encodeData_decodeWord (req : ReqWord) (w : Word) :
    encodeData (decodeWord req w) = if reqIsWrite req then w else 0 := by
  induction req using reqWord_induction with
  | hread off => simp [decodeWord_read]
  | hwrite off => simp [decodeWord_write]

/-- A transaction decoded from a word is decoded from no other (R58). -/
theorem decodeWord_eq_iff {i : Instr} {c : ReqWord} {w : Word} (hd : decodeWord c w = i) (req : ReqWord) :
    decodeWord req w = i ↔ req = c := by
  refine ⟨fun h => ?_, fun h => h ▸ hd⟩
  rw [← encodeReq_decodeWord req w, h, ← hd, encodeReq_decodeWord]

end Sys2Proof

namespace Sys2Proof.Laws

/-! ### The rows of the opcode map (R62) -/

/-- The family `SelectsItsRow` as one lemma. -/
theorem selectsItsRow (i : Instr) : SelectsItsRow.Statement i := by
  cases i with
  | rdTx => exact SelectsItsRow.rdTx
  | rdRx => exact SelectsItsRow.rdRx
  | rdControl => exact SelectsItsRow.rdControl
  | rdStatus => exact SelectsItsRow.rdStatus
  | rdEvStatus => exact SelectsItsRow.rdEvStatus
  | rdEvPending => exact SelectsItsRow.rdEvPending
  | rdEvEnable => exact SelectsItsRow.rdEvEnable
  | rdUnmapped1C => exact SelectsItsRow.rdUnmapped1C
  | rdUnmapped20 off => exact SelectsItsRow.rdUnmapped20 off
  | rdUnmapped40 off => exact SelectsItsRow.rdUnmapped40 off
  | rdUnmapped80 off => exact SelectsItsRow.rdUnmapped80 off
  | rdMisalignedOdd off => exact SelectsItsRow.rdMisalignedOdd off
  | rdMisalignedHalf off => exact SelectsItsRow.rdMisalignedHalf off
  | wrTx w => exact SelectsItsRow.wrTx w
  | wrRx w => exact SelectsItsRow.wrRx w
  | wrControl w => exact SelectsItsRow.wrControl w
  | wrStatus w => exact SelectsItsRow.wrStatus w
  | wrEvStatus w => exact SelectsItsRow.wrEvStatus w
  | wrEvPending w => exact SelectsItsRow.wrEvPending w
  | wrEvEnable w => exact SelectsItsRow.wrEvEnable w
  | wrUnmapped1C w => exact SelectsItsRow.wrUnmapped1C w
  | wrUnmapped20 off w => exact SelectsItsRow.wrUnmapped20 off w
  | wrUnmapped40 off w => exact SelectsItsRow.wrUnmapped40 off w
  | wrUnmapped80 off w => exact SelectsItsRow.wrUnmapped80 off w
  | wrMisalignedOdd off w => exact SelectsItsRow.wrMisalignedOdd off w
  | wrMisalignedHalf off w => exact SelectsItsRow.wrMisalignedHalf off w

/-- A row of a read transaction does not look at the operand (R57). -/
theorem build_of_isRead {row : OpcodeRow} (hmem : row ∈ opcodeTable) {off : Offset} {w : Word}
    (h : (row.build off w).isRead = true) (w' : Word) : row.build off w' = row.build off w := by
  obtain hr | hw := List.mem_append.mp hmem
  · fin_cases hr <;> rfl
  · fin_cases hw <;> cases h

/-- Every word is selected by a row that builds the transaction decoded from it. -/
theorem exists_row_of_decodeWord (req : ReqWord) (w : Word) :
    ∃ row ∈ opcodeTable, row.selects req = true ∧ decodeWord req w = row.build (reqOffset req) w := by
  obtain ⟨row, hmem, hsel, hbuild⟩ := selectsItsRow (decodeWord req w) (wf_decodeWord req w)
  rw [encodeReq_decodeWord] at hsel
  rw [encodeOffset_decodeWord, encodeData_decodeWord] at hbuild
  refine ⟨row, hmem, hsel, ?_⟩
  cases hdir : reqIsWrite req with
  | true => simpa [hdir] using hbuild.symm
  | false =>
    have hrow : row.build (reqOffset req) 0 = decodeWord req w := by simpa [hdir] using hbuild
    have hread : (row.build (reqOffset req) 0).isRead = true := by rw [hrow, isRead_decodeWord, hdir]; rfl
    rw [build_of_isRead hmem hread w, hrow]

/-- Two rows that select one word agree on the bits both of them look at. -/
theorem agree_of_selects {row row' : OpcodeRow} {req : ReqWord} (h : row.selects req = true)
    (h' : row'.selects req = true) : row.pattern &&& row'.mask = row'.pattern &&& row.mask := by
  rw [← eq_of_beq h, ← eq_of_beq h']
  ac_rfl

/-- Each two rows of the opcode map differ on a bit both of them look at. -/
theorem opcodeTable_rows_apart :
    opcodeTable.Pairwise fun row row' => row.pattern &&& row'.mask ≠ row'.pattern &&& row.mask := by
  decide

/-- Where no two members of a list satisfy `p`, one that does is all the filter keeps. -/
theorem filter_eq_singleton_of_pairwise {α : Type} {p : α → Bool} {l : List α} {a : α}
    (hl : l.Pairwise fun x y => ¬ (p x = true ∧ p y = true)) (hmem : a ∈ l) (ha : p a = true) : l.filter p = [a] := by
  obtain ⟨l₁, l₂, rfl⟩ := List.append_of_mem hmem
  obtain ⟨-, htail, hleft⟩ := List.pairwise_append.mp hl
  obtain ⟨hright, -⟩ := List.pairwise_cons.mp htail
  have h₁ : l₁.filter p = [] :=
    List.filter_eq_nil_iff.mpr fun x hx hpx => hleft x hx a List.mem_cons_self ⟨hpx, ha⟩
  have h₂ : l₂.filter p = [] :=
    List.filter_eq_nil_iff.mpr fun x hx hpx => hright x hx ⟨ha, hpx⟩
  simp [h₁, h₂, ha]

/-- A row that selects a word is the only one that does (R58). -/
theorem filter_selects_eq_singleton {row : OpcodeRow} {req : ReqWord} (hmem : row ∈ opcodeTable)
    (hsel : row.selects req = true) : opcodeTable.filter (fun r => r.selects req) = [row] :=
  filter_eq_singleton_of_pairwise
    (opcodeTable_rows_apart.imp fun hapart hboth => hapart (agree_of_selects hboth.1 hboth.2)) hmem hsel

end Sys2Proof.Laws

namespace Sys2Proof.Proofs
open Sys2Proof.Laws

/-- Settles O35: a word's decoded transaction has a row, the rows' masks leave no second one, and each of the fourteen
mapped words decodes to its own transaction. -/
theorem opcodeMapDecidesEveryWord : Obligations.OpcodeMapDecidesEveryWord := by
  intro req w
  obtain ⟨row, hmem, hsel, hbuild⟩ := exists_row_of_decodeWord req w
  have hword {i : Instr} {c : ReqWord} (h : decodeWord c w = i) := decodeWord_eq_iff h req
  exact ⟨⟨row, filter_selects_eq_singleton hmem hsel, hbuild⟩, isRead_decodeWord req w,
    hword rfl, hword rfl, hword rfl, hword rfl, hword rfl, hword rfl, hword rfl,
    hword rfl, hword rfl, hword rfl, hword rfl, hword rfl, hword rfl, hword rfl⟩

end Sys2Proof.Proofs
end

section
/-! PROOFS. The statement on the eleven reads at aligned offsets (R61): a register's image as a number, and 0 where no
register is named. -/

namespace Sys2Proof.Proofs
open Sys2Proof.Machine

/-- Settles O1: every read is `answerRead` of its register's image; the images are a pair, an extended half word or 0. -/
theorem readsAnswerComposedFields : Obligations.ReadsAnswerComposedFields := by
  intro s
  have hunmapped {i : Instr} (h : i.readsNoRegister = true) := exec_of_readsNoRegister h s
  exact ⟨rfl, ⟨_, zext32_toNat _, rfl⟩, ⟨_, pair_toNat _ _, rfl⟩, congrArg (answerRead · s) pair_status,
    ⟨_, pair_toNat _ _, rfl⟩, ⟨_, pair_toNat _ _, rfl⟩, ⟨_, pair_toNat _ _, rfl⟩, hunmapped rfl,
    fun off => ⟨hunmapped rfl, hunmapped rfl, hunmapped rfl⟩⟩

end Sys2Proof.Proofs
end

section
/-! PROOFS. Four reads as equations (R70, R72 to R74) and the bits of a pair image; then the statements on ComTx and
ComStatus, on ComControl and on ComEvStatus. -/

namespace Sys2Proof.Machine

/-! ### What the reads answer -/

/-- RD.TX (R70). -/
theorem exec_rdTx (s : State) : exec .rdTx s = .next { s with answer := .rdata 0 } := rfl

/-- RD.CONTROL (R72). -/
theorem exec_rdControl (s : State) :
    exec .rdControl s = .next { s with answer := .rdata (pair s.com.autoHold s.com.intEna) } := rfl

/-- RD.STATUS (R73): Tip and Hold are constants (R21, R22). -/
theorem exec_rdStatus (s : State) : exec .rdStatus s = .next { s with answer := .rdata 0 } :=
  congrArg (answerRead · s) pair_status

/-- RD.EV_STATUS (R74). -/
theorem exec_rdEvStatus (s : State) :
    exec .rdEvStatus s = .next { s with answer := .rdata (pair s.com.holdStatus s.com.intStatus) } := rfl

/-! ### Pair images (R61) -/

/-- A pair image has nothing above bit 1. -/
theorem pair_getLsbD_of_two_le (b1 b0 : Bool) {k : Nat} (hk : 2 ≤ k) : (pair b1 b0).getLsbD k = false := by
  rw [pair_getLsbD, if_neg (by omega), if_neg (by omega)]

/-- The pair image of two settled status bits is 0 (R74). -/
theorem pair_status_of_settled {c : ComState} (h : c.Settled) : pair c.holdStatus c.intStatus = 0 := by
  obtain ⟨hint, hhold⟩ := h
  rw [hint, hhold]
  rfl

end Sys2Proof.Machine

namespace Sys2Proof.Proofs
open Sys2Proof.Machine

/-- Settles O2: both reads answer 0 in every state, so also in the one a ComTx write leaves. -/
theorem txAndStatusReadZero : Obligations.TxAndStatusReadZero :=
  fun _ s => ⟨rfl, rfl, exec_rdTx s, exec_rdStatus s, fun _ t _ => ⟨exec_rdTx t, exec_rdStatus t⟩⟩

/-- Settles O5: the image is the pair of the two control bits, which reset() leaves and a ComControl write stores. -/
theorem controlReadsItsBitsAndSurvivesReset : Obligations.ControlReadsItsBitsAndSurvivesReset := by
  refine fun _ s => ⟨rfl, ⟨pair s.com.autoHold s.com.intEna, ?_⟩, fun w => ⟨_, rfl, ?_⟩⟩
  · exact ⟨pair_getLsbD _ _ 0, pair_getLsbD _ _ 1, fun _ => pair_getLsbD_of_two_le _ _, exec_rdControl s,
      exec_rdControl (applyReset s)⟩
  · exact congrArg (answerRead · _) (pair_bit1_bit0 w)

/-- Settles O6: the image is the pair of the two status bits, and 0 when both are at rest. -/
theorem evStatusIsComposedAndRestsAtZero : Obligations.EvStatusIsComposedAndRestsAtZero :=
  fun _ s => ⟨rfl, pair s.com.holdStatus s.com.intStatus, pair_getLsbD _ _ 0, pair_getLsbD _ _ 1,
    fun _ => pair_getLsbD_of_two_le _ _, exec_rdEvStatus s, pair_status_of_settled⟩

end Sys2Proof.Proofs
end

section
/-! PROOFS. The writes to ComControl, ComEvPending and ComEvEnable as equations, the last two at an access boundary
(R32); then the statements on the three (R81, R84, R85). -/

namespace Sys2Proof.Machine

/-- WR.CONTROL (R81). -/
theorem exec_wrControl (w : Word) (s : State) :
    exec (.wrControl w) s = .next { s with com := storeControl w s.com, answer := .done } := rfl

/-- Neither bit of ComControl is event-relevant: the line does not read them (R81, R99). -/
theorem irq_storeControl (w : Word) (c : ComState) : (storeControl w c).irq = c.irq := rfl

/-- A written 1 clears a write-one-to-clear bit and a written 0 keeps it (R29). -/
theorem storeBit_writeOneToClear (stored written : Bool) :
    storeBit .writeOneToClear stored written = if written then false else stored := by
  cases written
  · exact Bool.and_true stored
  · exact Bool.and_false stored

/-- An acknowledge clears each pending bit by its own operand bit (R84). -/
theorem storeEvPending_eq (w : Word) (c : ComState) :
    storeEvPending w c = { c with
      intPending := if bit0 w then false else c.intPending
      holdPending := if bit1 w then false else c.holdPending } := by
  rw [storeEvPending, storeBit_writeOneToClear, storeBit_writeOneToClear]

/-- WR.EV_PENDING at an access boundary: the store leaves the status bits at 0, so `Recompute()` adds nothing (R84). -/
theorem exec_wrEvPending_of_settled (w : Word) {s : State} (h : s.com.Settled) :
    exec (.wrEvPending w) s = .next { s with com := storeEvPending w s.com, answer := .done } :=
  have hstored : (storeEvPending w s.com).Settled := h
  congrArg (answerWrite · s) (recompute_of_settled hstored)

/-- WR.EV_ENABLE at an access boundary: the store leaves the status bits at 0, so `Recompute()` adds nothing (R85). -/
theorem exec_wrEvEnable_of_settled (w : Word) {s : State} (h : s.com.Settled) :
    exec (.wrEvEnable w) s = .next { s with com := storeEvEnable w s.com, answer := .done } :=
  have hstored : (storeEvEnable w s.com).Settled := h
  congrArg (answerWrite · s) (recompute_of_settled hstored)

end Sys2Proof.Machine

namespace Sys2Proof.Proofs
open Sys2Proof.Machine

/-- Settles O8: the stored fields are `storeControl`'s, which the line does not read and whose pair image is the two low
bits of the operand. -/
theorem controlWriteStoresAndReadsBack : Obligations.ControlWriteStoresAndReadsBack :=
  fun w s => ⟨rfl, _, exec_wrControl w s, rfl, irq_storeControl w s.com,
    congrArg (answerRead · _) (pair_bit1_bit0 w)⟩

/-- Settles O9: the status bits are 0, so the write stores what write-one-to-clear leaves and `Recompute()` keeps it. -/
theorem acknowledgeClearsTheWrittenOnes : Obligations.AcknowledgeClearsTheWrittenOnes := by
  intro w s hs
  refine ⟨rfl, _, exec_wrEvPending_of_settled w hs, ?_, rfl⟩
  rw [storeEvPending_eq]
  rfl

/-- Settles O11: the status bits are 0, so the write stores the two enables, and the line reads them against the pending
bits kept. -/
theorem enableWriteStoresTheMask : Obligations.EnableWriteStoresTheMask :=
  fun w _ hs => ⟨rfl, _, exec_wrEvEnable_of_settled w hs, rfl, rfl⟩

end Sys2Proof.Proofs
end

section
/-! PROOFS. The line after `Recompute()`; then the statement on the aggregator (R97, R99). -/

namespace Sys2Proof.Machine

/-- The line after `Recompute()` reads the latched pending bits against the enables it left alone (R97, step 3; R99). -/
theorem irq_recompute (c : ComState) :
    (recompute c).irq =
      (((c.intPending || c.intStatus) && c.intEnable) || ((c.holdPending || c.holdStatus) && c.holdEnable)) :=
  congrArg ComState.irq (recompute_eq c)

end Sys2Proof.Machine

namespace Sys2Proof.Proofs
open Sys2Proof.Machine

/-- Settles O18: `Recompute()` is the two latches as one update, and the line is a function of what they leave. -/
theorem recomputeLatchesAndDrivesTheLine : Obligations.RecomputeLatchesAndDrivesTheLine :=
  fun c => ⟨recompute_eq c, irq_recompute c⟩

end Sys2Proof.Proofs
end

section
/-! PROOFS. The step that takes a reset, as an equation; then the statement on the six event fields (R117). -/

namespace Sys2Proof.Machine

/-- The step of a machine whose oldest input is the reset takes it off the inbox and is that reset (R116, R117). -/
theorem step_reset {s : State} {rest : List Input} (hf : s.faulted = none) (hi : s.inbox = .reset :: rest) :
    step s = .next (applyReset { s with inbox := rest }) :=
  step_input hf hi

end Sys2Proof.Machine

namespace Sys2Proof.Proofs
open Sys2Proof.Machine

/-- Settles O26: the step is `applyReset`, whose fields are `resetFields`: six at 0, the other three as before. -/
theorem resetZeroesTheEventFieldsOnly : Obligations.ResetZeroesTheEventFieldsOnly := by
  intro s rest hf hi
  refine ⟨_, step_reset hf hi, ?_⟩
  simp

end Sys2Proof.Proofs
end

section
/-! PROOFS. A row of the opcode map says what its word decodes to; then the statements on decode and encode (D2), on
which accesses are accepted (D4, D20), on the table's words and on the lines of a program (R66 to R68). -/

namespace Sys2Proof

/-! ### Decode of what is encoded -/

/-- A transaction's request word holds the offset it is issued at (R57). -/
theorem reqOffset_encodeReq (i : Instr) : reqOffset (encodeReq i) = encodeOffset i :=
  reqOffset_reqWord _ _

/-- The access encoded for a transaction is accepted, and its request word is the transaction's (R56, R57). -/
theorem decode_encode_eq (i : Instr) : decode (encode i) = .ok (decodeWord (encodeReq i) (encodeData i)) := by
  have hoff : BitVec.ofNat 8 (encode i).offset = encodeOffset i := by simp [encode]
  rw [decode_of_accepted rfl (encodeOffset i).isLt, hoff]
  rfl

end Sys2Proof

namespace Sys2Proof.Laws

/-- Two rows that select one word are the same row (R58). -/
theorem row_eq_of_selects {row row' : OpcodeRow} {req : ReqWord} (hmem : row ∈ opcodeTable) (hmem' : row' ∈ opcodeTable)
    (hsel : row.selects req = true) (hsel' : row'.selects req = true) : row = row' :=
  List.singleton_inj.mp
    ((filter_selects_eq_singleton hmem hsel).symm.trans (filter_selects_eq_singleton hmem' hsel'))

/-- A well-formed transaction and the one decoded from its word have the same row, so they are the same. -/
theorem decodeWord_encodeReq {i : Instr} (h : i.WellFormed) : decodeWord (encodeReq i) (encodeData i) = i := by
  obtain ⟨row, hmem, hsel, hbuild⟩ := selectsItsRow i h
  obtain ⟨row', hmem', hsel', hdecode⟩ := exists_row_of_decodeWord (encodeReq i) (encodeData i)
  obtain rfl := row_eq_of_selects hmem hmem' hsel hsel'
  rw [hdecode, reqOffset_encodeReq, hbuild]

/-- A well-formed transaction's access decodes to it (D2). -/
theorem decode_encode {i : Instr} (h : i.WellFormed) : decode (encode i) = .ok i := by
  rw [decode_encode_eq, decodeWord_encodeReq h]

end Sys2Proof.Laws

namespace Sys2Proof.Machine

/-! ### The lines of a program (R66 to R68) -/

/-- An access of the block's interface at an offset is the transaction decoded from the offset's request word. -/
theorem transactionOf_bus (isWrite : Bool) (off : Offset) (w : Word) :
    transactionOf (.bus { isWrite := isWrite, offset := off.toNat, bytes := 4, wdata := w }) =
      some (decodeWord (reqWord isWrite off) w) := by
  rw [transactionOf, requestOf]
  simp only [decode_of_accepted (r := { isWrite := isWrite, offset := off.toNat, bytes := 4, wdata := w }) rfl off.isLt,
    BitVec.ofNat_toNat, BitVec.setWidth_eq]

/-- A read of an offset is one transaction (R66). -/
theorem transactionOf_readAt (off : Offset) : transactionOf (readAt off) = some (decodeWord (reqWord false off) 0) :=
  transactionOf_bus false off 0

/-- A write at an offset is one transaction (R66). -/
theorem transactionOf_writeAt (off : Offset) (w : Word) :
    transactionOf (writeAt off w) = some (decodeWord (reqWord true off) w) :=
  transactionOf_bus true off w

end Sys2Proof.Machine

namespace Sys2Proof.Proofs
open Sys2Proof.Machine Sys2Proof.Laws

/-- Settles O36: the encoded access is accepted, and its word's one row stands for the transaction encoded. -/
theorem decodeOfEncode : Obligations.DecodeOfEncode :=
  fun _ hwf => decode_encode hwf

/-- Settles O37: decode keeps the word's direction and offset and a write's operand, which is all a transaction is. -/
theorem encodeOfDecode : Obligations.EncodeOfDecode :=
  fun req w =>
    ⟨wf_decodeWord req w, encodeReq_decodeWord req w, isRead_decodeWord req w, encodeData_decodeWord req w⟩

/-- Settles O38: an access of another width or beyond the window is the error of that name, every other is decoded. -/
theorem decodeAcceptsDoubleWordsInTheWindow : Obligations.DecodeAcceptsDoubleWordsInTheWindow := by
  refine fun r => ⟨fun ⟨i, hi⟩ => ?_, fun ⟨hb, ho⟩ => ⟨_, decode_of_accepted hb ho⟩⟩
  by_cases hb : r.bytes = 4
  · refine ⟨hb, Nat.lt_of_not_le fun ho => ?_⟩
    rw [decode_outside hb ho] at hi
    cases hi
  · rw [decode_notDoubleWord hb] at hi
    cases hi

/-- Settles O39: the decoder evaluated on each of the eleven words. -/
theorem tableWordsDecodeAsWritten : Obligations.TableWordsDecodeAsWritten :=
  fun _ => ⟨rfl, rfl, rfl, rfl, rfl, rfl, rfl, rfl, rfl, rfl, rfl⟩

/-- Settles O40: every RD, WR and pseudo-instruction line is a read or a write at an offset, which decodes to its
register's row; a directive is no access. -/
theorem pseudoInstructionsAreOneTransaction : Obligations.PseudoInstructionsAreOneTransaction := by
  refine ⟨⟨rfl, rfl, rfl, rfl, rfl, rfl, rfl⟩, fun r m => ⟨transactionOf_readAt _, transactionOf_writeAt _ m⟩,
    fun _ _ => ⟨rfl, rfl, rfl⟩, fun m off => ?_⟩
  exact ⟨transactionOf_writeAt 0x00 m, transactionOf_writeAt 0x14 m, transactionOf_writeAt 0x14 1,
    transactionOf_writeAt 0x14 2, transactionOf_writeAt 0x18 m, transactionOf_writeAt 0x08 m,
    transactionOf_readAt off, transactionOf_writeAt off m, rfl⟩

end Sys2Proof.Proofs
end

section
/-! PROOFS. The writers of `int_ena`, of the status bits and of the pending bits, each said once for a write of the
fields and once for a step; then the statements on the flags, on quiet states and on the line (R17, R23 to R25, R32,
R33, R103). -/

namespace Sys2Proof.Machine

/-! ### The writers, for a transaction's write of the fields -/

section
variable {c d : ComState} {x : Option Peripheral} {i : Instr}

/-- `int_ena` is stored by a ComControl write and left by the others (R17). -/
theorem FieldWrite.intEna (h : FieldWrite c x i d) :
    d.intEna = c.intEna ∨ ∃ w, i = .wrControl w ∧ d.intEna = bit0 w := by
  cases h with
  | control w hi hd => exact .inr ⟨w, hi, by simp [hd]⟩
  | evPending w hi hd => left; simp [hd, recompute_eq]
  | evEnable w hi hd => left; simp [hd, recompute_eq]
  | tx w rx hi hx hd => left; simp [hd, pulse_eq]

/-- `int_status` is left, or settled by the pulse (R23). -/
theorem FieldWrite.intStatus (h : FieldWrite c x i d) :
    d.intStatus = c.intStatus ∨ (d.intStatus = false ∧ ∃ w, i = .wrTx w ∧ c.intEna = true ∧ x ≠ none) := by
  cases h with
  | control w hi hd => left; simp [hd]
  | evPending w hi hd => left; simp [hd, recompute_eq]
  | evEnable w hi hd => left; simp [hd, recompute_eq]
  | tx w rx hi hx hd =>
    cases hena : c.intEna with
    | false => left; simp [hd, pulse_eq, hena]
    | true => exact .inr ⟨by simp [hd, pulse_eq, hena], w, hi, rfl, hx⟩

/-- No write of the fields touches `hold_status` (R24). -/
theorem FieldWrite.holdStatus (h : FieldWrite c x i d) : d.holdStatus = c.holdStatus := by
  cases h with
  | control w hi hd => simp [hd]
  | evPending w hi hd => simp [hd, recompute_eq]
  | evEnable w hi hd => simp [hd, recompute_eq]
  | tx w rx hi hx hd => simp [hd, pulse_eq]

/-- From settled fields only the pulse sets `int_pending` (R25). -/
theorem FieldWrite.pulses_of_sets_intPending (h : FieldWrite c x i d) (hs : c.Settled) (hc : c.intPending = false)
    (hd : d.intPending = true) : ∃ w, i = .wrTx w ∧ c.intEna = true ∧ x ≠ none := by
  obtain ⟨hint, -⟩ := hs
  cases h with
  | control w hi hstore => simp [hstore, hc] at hd
  | evPending w hi hstore => simp [hstore, recompute_eq, hint, hc] at hd
  | evEnable w hi hstore => simp [hstore, recompute_eq, hint, hc] at hd
  | tx w rx hi hx hstore => exact ⟨w, hi, by simpa [hstore, pulse_eq, hc] using hd, hx⟩

/-- From settled fields nothing sets `hold_pending` (R25, D21). -/
theorem FieldWrite.holdPending_eq_false (h : FieldWrite c x i d) (hs : c.Settled) (hc : c.holdPending = false) :
    d.holdPending = false := by
  obtain ⟨-, hhold⟩ := hs
  cases h with
  | control w hi hd => simp [hd, hc]
  | evPending w hi hd => simp [hd, recompute_eq, hhold, hc]
  | evEnable w hi hd => simp [hd, recompute_eq, hhold, hc]
  | tx w rx hi hx hd => simp [hd, pulse_eq, hhold, hc]

/-- Only an acknowledge of its bit clears `int_pending` (R25). -/
theorem FieldWrite.acks_of_clears_intPending (h : FieldWrite c x i d) (hc : c.intPending = true)
    (hd : d.intPending = false) : ∃ w, i = .wrEvPending w ∧ bit0 w = true := by
  cases h with
  | control w hi hstore => simp [hstore, hc] at hd
  | evPending w hi hstore =>
    have hzero : bit0 w = true ∧ c.intStatus = false := by simpa [hstore, recompute_eq, hc] using hd
    exact ⟨w, hi, hzero.left⟩
  | evEnable w hi hstore => simp [hstore, recompute_eq, hc] at hd
  | tx w rx hi hx hstore => simp [hstore, pulse_eq, hc] at hd

/-- Only an acknowledge of its bit clears `hold_pending` (R25). -/
theorem FieldWrite.acks_of_clears_holdPending (h : FieldWrite c x i d) (hc : c.holdPending = true)
    (hd : d.holdPending = false) : ∃ w, i = .wrEvPending w ∧ bit1 w = true := by
  cases h with
  | control w hi hstore => simp [hstore, hc] at hd
  | evPending w hi hstore =>
    have hzero : bit1 w = true ∧ c.holdStatus = false := by simpa [hstore, recompute_eq, hc] using hd
    exact ⟨w, hi, hzero.left⟩
  | evEnable w hi hstore => simp [hstore, recompute_eq, hc] at hd
  | tx w rx hi hx hstore => simp [hstore, pulse_eq, hc] at hd

end

/-! ### The writers, for a step -/

section
variable {s t : State}

/-- A step leaves `int_ena`, reset() included, or stores it by a ComControl write (R17). -/
theorem step_intEna (h : step s = .next t) :
    t.com.intEna = s.com.intEna ∨ ∃ w, s.nextTransaction = some (.wrControl w) ∧ t.com.intEna = bit0 w := by
  obtain hc | ⟨i, hi, hw⟩ | ⟨-, hc⟩ := step_com_cases h
  · simp [hc]
  · exact hw.intEna.imp_right fun ⟨w, hiw, hstored⟩ => ⟨w, hiw ▸ hi, hstored⟩
  · simp [hc]

/-- A step leaves `int_status`, or makes it 0 by reset() or the pulse (R23). -/
theorem step_intStatus (h : step s = .next t) :
    t.com.intStatus = s.com.intStatus ∨
      (t.com.intStatus = false ∧
        (s.resetsNext = true ∨ ∃ w, s.nextTransaction = some (.wrTx w) ∧ s.com.intEna = true ∧ s.xfer ≠ none)) := by
  obtain hc | ⟨i, hi, hw⟩ | ⟨hr, hc⟩ := step_com_cases h
  · simp [hc]
  · exact hw.intStatus.imp_right fun ⟨hzero, w, hiw, hpulse⟩ => ⟨hzero, .inr ⟨w, hiw ▸ hi, hpulse⟩⟩
  · simp [hc, hr]

/-- A step leaves `hold_status`, or makes it 0 by reset() (R24). -/
theorem step_holdStatus (h : step s = .next t) :
    t.com.holdStatus = s.com.holdStatus ∨ (t.com.holdStatus = false ∧ s.resetsNext = true) := by
  obtain hc | ⟨i, -, hw⟩ | ⟨hr, hc⟩ := step_com_cases h
  · simp [hc]
  · exact .inl hw.holdStatus
  · simp [hc, hr]

/-- From a settled state a step sets `int_pending` by the pulse only (R25). -/
theorem step_sets_intPending (h : step s = .next t) (hs : s.com.Settled) (hc : s.com.intPending = false)
    (hd : t.com.intPending = true) :
    ∃ w, s.nextTransaction = some (.wrTx w) ∧ s.com.intEna = true ∧ s.xfer ≠ none := by
  obtain hcom | ⟨i, hi, hw⟩ | ⟨-, hcom⟩ := step_com_cases h
  · simp [hcom, hc] at hd
  · obtain ⟨w, rfl, hpulse⟩ := hw.pulses_of_sets_intPending hs hc hd
    exact ⟨w, hi, hpulse⟩
  · simp [hcom] at hd

/-- From a settled state no step sets `hold_pending` (R25, D21). -/
theorem step_holdPending_eq_false (h : step s = .next t) (hs : s.com.Settled) (hc : s.com.holdPending = false) :
    t.com.holdPending = false := by
  obtain hcom | ⟨i, -, hw⟩ | ⟨-, hcom⟩ := step_com_cases h
  · rw [hcom, hc]
  · exact hw.holdPending_eq_false hs hc
  · simp [hcom]

/-- A step clears `int_pending` by an acknowledge of its bit or by reset() only (R25). -/
theorem step_clears_intPending (h : step s = .next t) (hc : s.com.intPending = true) (hd : t.com.intPending = false) :
    (∃ w, s.nextTransaction = some (.wrEvPending w) ∧ bit0 w = true) ∨ s.resetsNext = true := by
  obtain hcom | ⟨i, hi, hw⟩ | ⟨hr, -⟩ := step_com_cases h
  · simp [hcom, hc] at hd
  · obtain ⟨w, rfl, hbit⟩ := hw.acks_of_clears_intPending hc hd
    exact .inl ⟨w, hi, hbit⟩
  · exact .inr hr

/-- A step clears `hold_pending` by an acknowledge of its bit or by reset() only (R25). -/
theorem step_clears_holdPending (h : step s = .next t) (hc : s.com.holdPending = true)
    (hd : t.com.holdPending = false) :
    (∃ w, s.nextTransaction = some (.wrEvPending w) ∧ bit1 w = true) ∨ s.resetsNext = true := by
  obtain hcom | ⟨i, hi, hw⟩ | ⟨hr, -⟩ := step_com_cases h
  · simp [hcom, hc] at hd
  · obtain ⟨w, rfl, hbit⟩ := hw.acks_of_clears_holdPending hc hd
    exact .inl ⟨w, hi, hbit⟩
  · exact .inr hr

/-- A step keeps the invariant of R32. -/
theorem step_settled (h : step s = .next t) (hs : s.com.Settled) : t.com.Settled := by
  obtain ⟨hint, hhold⟩ := hs
  constructor
  · obtain hsame | ⟨hzero, -⟩ := step_intStatus h
    · rw [hsame, hint]
    · exact hzero
  · obtain hsame | ⟨hzero, -⟩ := step_holdStatus h
    · rw [hsame, hhold]
    · exact hzero

/-! ### The line (R99, R103) -/

/-- A step clears an enable by a ComEvEnable write with a 0 in its bit or by reset() only (R26). -/
theorem step_clears_enable (h : step s = .next t)
    (hc : (s.com.intEnable = true ∧ t.com.intEnable = false) ∨ (s.com.holdEnable = true ∧ t.com.holdEnable = false)) :
    (∃ w, s.nextTransaction = some (.wrEvEnable w) ∧ (bit0 w = false ∨ bit1 w = false)) ∨ s.resetsNext = true := by
  obtain ⟨hint, hhold⟩ | ⟨w, hi, hint, hhold⟩ | ⟨hr, -⟩ := step_enables h
  · simp [hint, hhold] at hc
  · rw [hint, hhold] at hc
    exact .inl ⟨w, hi, hc.imp And.right And.right⟩
  · exact .inr hr

/-- A step sets `int_enable` by a ComEvEnable write with a 1 in its bit only (R26). -/
theorem step_sets_intEnable (h : step s = .next t) (hc : s.com.intEnable = false) (hd : t.com.intEnable = true) :
    ∃ w, s.nextTransaction = some (.wrEvEnable w) ∧ bit0 w = true := by
  obtain ⟨hint, -⟩ | ⟨w, hi, hint, -⟩ | ⟨-, hint, -⟩ := step_enables h
  · simp [hint, hc] at hd
  · exact ⟨w, hi, hint ▸ hd⟩
  · simp [hint] at hd

/-- A step sets `hold_enable` by a ComEvEnable write with a 1 in its bit only (R26). -/
theorem step_sets_holdEnable (h : step s = .next t) (hc : s.com.holdEnable = false) (hd : t.com.holdEnable = true) :
    ∃ w, s.nextTransaction = some (.wrEvEnable w) ∧ bit1 w = true := by
  obtain ⟨-, hhold⟩ | ⟨w, hi, -, hhold⟩ | ⟨-, -, hhold⟩ := step_enables h
  · simp [hhold, hc] at hd
  · exact ⟨w, hi, hhold ▸ hd⟩
  · simp [hhold] at hd

/-- The line is low exactly when no source is both pending and enabled (R99). -/
theorem irqLine_eq_false_iff (s : State) :
    irqLine s = false ↔
      (s.com.intPending = true → s.com.intEnable = false) ∧ (s.com.holdPending = true → s.com.holdEnable = false) := by
  simp [irqLine, ComState.irq]

end

end Sys2Proof.Machine

namespace Sys2Proof.Proofs
open Sys2Proof.Machine

/-- Settles O44: a step keeps both status bits settled, and from settled fields nothing sets `hold_pending`. -/
theorem quietIsKeptByEveryStep : Obligations.QuietIsKeptByEveryStep :=
  fun _ _ ⟨hs, hhold⟩ h => ⟨step_settled h hs, step_holdPending_eq_false h hs hhold⟩

/-- Settles O47: of the source that held the line up, the step cleared the pending bit or the enable. -/
theorem lineFallsOnlyByAcknowledgeDisableOrReset : Obligations.LineFallsOnlyByAcknowledgeDisableOrReset := by
  intro s t h hhigh hlow
  obtain ⟨hlowInt, hlowHold⟩ := (irqLine_eq_false_iff t).mp hlow
  obtain ⟨hp, he⟩ | ⟨hp, he⟩ := (irqLine_eq_true_iff s).mp hhigh
  · cases hp' : t.com.intPending with
    | true => exact .inr (step_clears_enable h (.inl ⟨he, hlowInt hp'⟩))
    | false => exact (step_clears_intPending h hp hp').imp (fun ⟨w, hi, hbit⟩ => ⟨w, hi, .inl hbit⟩) .inr
  · cases hp' : t.com.holdPending with
    | true => exact .inr (step_clears_enable h (.inr ⟨he, hlowHold hp'⟩))
    | false => exact (step_clears_holdPending h hp hp').imp (fun ⟨w, hi, hbit⟩ => ⟨w, hi, .inr hbit⟩) .inr

/-- Settles O48: of the source that pulls the line up, the step set the enable, or the pending bit by the pulse, and a
ComTx write is no ComEvEnable write, so the enable stood before. -/
theorem lineRisesOnlyByTxOrEnable : Obligations.LineRisesOnlyByTxOrEnable := by
  intro s t hs h hlow hhigh
  obtain ⟨hlowInt, hlowHold⟩ := (irqLine_eq_false_iff s).mp hlow
  obtain ⟨hp', he'⟩ | ⟨hp', he'⟩ := (irqLine_eq_true_iff t).mp hhigh
  · cases hp : s.com.intPending with
    | true =>
      obtain ⟨w, hi, hbit⟩ := step_sets_intEnable h (hlowInt hp) he'
      exact .inr ⟨w, hi, .inl ⟨rfl, hbit⟩⟩
    | false =>
      obtain ⟨w, hi, hena, hx⟩ := step_sets_intPending h hs hp hp'
      cases he : s.com.intEnable with
      | true => exact .inl ⟨w, hi, hx, hena, rfl⟩
      | false =>
        obtain ⟨w', hi', -⟩ := step_sets_intEnable h he he'
        simp [hi] at hi'
  · cases hp : s.com.holdPending with
    | true =>
      obtain ⟨w, hi, hbit⟩ := step_sets_holdEnable h (hlowHold hp) he'
      exact .inr ⟨w, hi, .inr ⟨rfl, hbit⟩⟩
    | false => simp [step_holdPending_eq_false h hs hp] at hp'

/-- Settles O23: the four writers of the two pending bits, from a settled state. -/
theorem pendingBitsHaveTheirWriters : Obligations.PendingBitsHaveTheirWriters :=
  fun _ _ hs h => ⟨step_sets_intPending h hs, step_clears_intPending h, step_holdPending_eq_false h hs,
    step_clears_holdPending h⟩

/-- Settles O24: the writers of the two status bits. -/
theorem statusBitsAreNeverLeftSet : Obligations.StatusBitsAreNeverLeftSet :=
  fun _ _ h => ⟨step_intStatus h, step_holdStatus h⟩

end Sys2Proof.Proofs
end

section
/-! PROOFS. A ComTx write as an equation, attached and unattached, and what it does to the flags; then the statements on
the ComTx write, its consequences and `int_ena` (R17, R89 to R95). -/

namespace Sys2Proof.Machine

/-! ### The ComTx write as an equation (R89, R93) -/

/-- The two calls of a ComTx write to `p`, draw `n` being the next: the low byte, then the high byte to the peripheral
as the first call left it (R90). -/
def txCalls (p : Peripheral) (n : Nat) (w : Word) : Transfer × Transfer :=
  ({ sent := txLo w, reply := replyOf p n (txLo w) },
   { sent := txHi w, reply := replyOf (afterCall p) (n + drawsOf p) (txHi w) })

/-- The fields an attached ComTx write leaves: the two replies in `rx`, then the pulse (R89, R91). -/
def txFields (p : Peripheral) (n : Nat) (w : Word) (c : ComState) : ComState :=
  pulse { c with rx := assembleRx (txCalls p n w).1.reply (txCalls p n w).2.reply }

/-- WR.TX with a peripheral attached (R89). -/
theorem exec_wrTx_attached (w : Word) {s : State} {p : Peripheral} (hx : s.xfer = some p) :
    exec (.wrTx w) s = .next { s with
      com := txFields p s.draws w s.com
      xfer := some (afterCall (afterCall p))
      transfers := s.transfers ++ [(txCalls p s.draws w).1, (txCalls p s.draws w).2]
      draws := s.draws + drawsOf p + drawsOf (afterCall p)
      answer := .done } := by
  have hexec : exec (.wrTx w) s = sendBoth p w s := execWrTx_attached hx
  rw [hexec, sendBoth_eq, txFields, pulse_eq]
  rfl

/-- WR.TX with nothing attached (R93, R104). -/
theorem exec_wrTx_unattached (w : Word) {s : State} (hx : s.xfer = none) :
    exec (.wrTx w) s = .next { s with
      answer := .configError .unattachedTransferTarget
      faulted := some { error := .unattachedTransferTarget, req := 0x100, wdata := w } } := by
  have hexec : exec (.wrTx w) s = execWrTx w s := rfl
  rw [hexec, execWrTx_unattached hx, encodeReq_wrTx]

/-! ### The flags after it (R92, R95) -/

/-- With `int_ena` at 0 there is no pulse (R89). -/
theorem pulse_of_not_intEna {c : ComState} (h : c.intEna = false) : pulse c = c := by
  simp [pulse, h]

/-- With `int_ena` at 0 a ComTx write leaves every field but `rx` (R95). -/
theorem exec_wrTx_of_not_intEna {w : Word} {s t : State} (hena : s.com.intEna = false)
    (h : exec (.wrTx w) s = .next t) : ∃ rx, t.com = { s.com with rx := rx } := by
  cases hx : s.xfer with
  | none => rw [exec_wrTx_unattached w hx] at h; cases h; exact ⟨s.com.rx, rfl⟩
  | some p => rw [exec_wrTx_attached w hx] at h; cases h; exact ⟨_, pulse_of_not_intEna hena⟩

/-- A pending event stays pending through an attached ComTx write, and an enabled one is pending after it (R95). -/
@[simp] theorem txFields_intPending (p : Peripheral) (n : Nat) (w : Word) (c : ComState) :
    (txFields p n w c).intPending = (c.intPending || c.intEna) := by
  simp [txFields, pulse_eq]

/-- The pulse settles its status bit (R92). -/
@[simp] theorem txFields_intStatus (p : Peripheral) (n : Nat) (w : Word) (c : ComState) :
    (txFields p n w c).intStatus = (c.intStatus && !c.intEna) := by
  simp [txFields, pulse_eq]

/-- The pulse writes no `rx` (R89). -/
theorem txFields_rx (p : Peripheral) (n : Nat) (w : Word) (c : ComState) :
    (txFields p n w c).rx = assembleRx (txCalls p n w).1.reply (txCalls p n w).2.reply := by
  simp [txFields, pulse_eq]

/-- An echo peripheral sends the two bytes back as they went out (R68, R95). -/
theorem txFields_echo_rx_toNat (n : Nat) (w : Word) (c : ComState) :
    (txFields .echo n w c).rx.toNat = w.toNat % 65536 := by
  have hreplies : (txFields .echo n w c).rx = assembleRx (txLo w) (txHi w) := txFields_rx .echo n w c
  rw [hreplies, assembleRx_toNat, txLo_toNat, txHi_toNat]
  omega

/-- The transactions behind one that completes run from the state it leaves. -/
theorem execAll_cons_of_next {i : Instr} {s t : State} (h : exec i s = .next t) (is : List Instr) :
    execAll (i :: is) s = execAll is t := by
  rw [execAll, h]

/-- A pending event is pending after any number of attached ComTx writes, and all of them complete (R95). -/
theorem execAll_wrTx_intPending (ws : List Word) {s : State} {p : Peripheral} (hp : s.com.intPending = true)
    (hx : s.xfer = some p) : ∃ t, execAll (ws.map Instr.wrTx) s = .next t ∧ t.com.intPending = true := by
  induction ws generalizing s p with
  | nil => exact ⟨s, rfl, hp⟩
  | cons w ws ih =>
    rw [List.map_cons, execAll_cons_of_next (exec_wrTx_attached w hx)]
    exact ih (by simp [hp]) rfl

end Sys2Proof.Machine

namespace Sys2Proof.Proofs
open Sys2Proof.Machine

/-- Settles O14: the equation's two calls are of the two low bytes, and its `rx` is their replies. -/
theorem txSendsLowByteThenHighByte : Obligations.TxSendsLowByteThenHighByte := by
  intro w s p hx
  refine ⟨_, txLo w, txHi w, _, _, exec_wrTx_attached w hx, txLo_toNat w, txHi_toNat w, rfl, rfl, rfl, ?_⟩
  exact (congrArg BitVec.toNat (txFields_rx p s.draws w s.com)).trans (assembleRx_toNat _ _)

/-- Settles O15: the equation, with the pulse written out field by field. -/
theorem txAttachedNextState : Obligations.TxAttachedNextState := by
  intro w s p hx
  refine ⟨txLo w, txHi w, _, _, txLo_toNat w, txHi_toNat w, rfl, rfl, ?_⟩
  rw [exec_wrTx_attached w hx, txFields, pulse_eq]
  rfl

/-- Settles O16: the equation of the unattached write; the error's one code is 1. -/
theorem txUnattachedRecordsTheError : Obligations.TxUnattachedRecordsTheError :=
  fun w _ hx => ⟨exec_wrTx_unattached w hx, rfl⟩

/-- Settles O17: each property is read off the fields the write leaves. -/
theorem txConsequences : Obligations.TxConsequences := by
  refine ⟨fun w s hx => ?_, fun w s t hena h => ?_, fun w s p hena hx => ?_, fun ws s p hp hx => ?_,
    fun w s hs hbit => ?_⟩
  · refine ⟨_, _, exec_wrTx_attached w hx, ?_, rfl⟩
    exact (zext32_toNat _).trans (txFields_echo_rx_toNat s.draws w s.com)
  · obtain ⟨rx, hcom⟩ := exec_wrTx_of_not_intEna hena h
    rw [hcom]
  · refine ⟨_, exec_wrTx_attached w hx, ?_, ?_⟩
    · simp [hena]
    · simp [hena]
  · exact execAll_wrTx_intPending ws hp hx
  · refine ⟨_, exec_wrEvPending_of_settled w hs, ?_, fun hbit1 => ?_⟩
    · rw [storeEvPending_intPending, bit0, hbit, Bool.not_true, Bool.and_false]
    · rw [storeEvPending_holdPending, bit1, hbit1, Bool.not_false, Bool.and_true]

/-- Settles O20: a ComControl write is the one writer, ComControl's image has the bit, and the pulse reads it. -/
theorem intEnaHasOneWriterAndGatesThePulse : Obligations.IntEnaHasOneWriterAndGatesThePulse := by
  refine ⟨fun s t h => step_intEna h, fun w s => ⟨_, exec_wrControl w s, rfl⟩,
    fun s => ⟨_, exec_rdControl s, pair_getLsbD _ _ 0⟩, fun w s t hena h => ?_, fun w s p hena hx => ?_⟩
  · obtain ⟨rx, hcom⟩ := exec_wrTx_of_not_intEna hena h
    simp [irqLine, ComState.irq, hcom]
  · exact ⟨_, exec_wrTx_attached w hx, by simp [hena]⟩

end Sys2Proof.Proofs
end

section
/-! PROOFS. Every transaction completes: what it does to `rx` and the history, to the attachment, the waiting inputs and
the record, in one lemma for the ComTx write and one for the others; then the statements on them (R20, R88, R104). -/

namespace Sys2Proof.Machine

/-- The aggregator writes no `rx` (R98). -/
theorem recompute_rx (c : ComState) : (recompute c).rx = c.rx := by
  rw [recompute_eq]

/-- A transaction other than a ComTx write writes the block's fields and the port's answer, whatever is attached; `rx`
stays, and the fields change for three writes only (R69, R79). -/
theorem exec_frame {i : Instr} (hi : ∀ w, i ≠ .wrTx w) (s : State) :
    ∃ (c : ComState) (a : Answer), exec i s = .next { s with com := c, answer := a } ∧ c.rx = s.com.rx ∧
      (c ≠ s.com → ∃ w, i = .wrControl w ∨ i = .wrEvPending w ∨ i = .wrEvEnable w) ∧
      ∀ x : Option Peripheral, exec i { s with xfer := x } = .next { s with xfer := x, com := c, answer := a } := by
  cases i with
  | wrTx w => exact absurd rfl (hi w)
  | wrControl w => exact ⟨_, _, rfl, rfl, fun _ => ⟨w, .inl rfl⟩, fun _ => rfl⟩
  | wrEvPending w =>
    exact ⟨_, _, rfl, recompute_rx (storeEvPending w s.com), fun _ => ⟨w, .inr (.inl rfl)⟩, fun _ => rfl⟩
  | wrEvEnable w =>
    exact ⟨_, _, rfl, recompute_rx (storeEvEnable w s.com), fun _ => ⟨w, .inr (.inr rfl)⟩, fun _ => rfl⟩
  | _ => exact ⟨s.com, _, rfl, rfl, fun hne => absurd rfl hne, fun _ => rfl⟩

/-- What running transaction `i`, or none, does around the block's flags: nothing; or, an attached ComTx write, its two
calls, whose replies are in `rx`; or, an unattached one, the record. -/
inductive Effect (s : State) (i : Option Instr) (t : State) : Prop where
  | none (hrx : t.com.rx = s.com.rx) (htransfers : t.transfers = s.transfers) (hfaulted : t.faulted = s.faulted)
  | sends (w : Word) (first second : Byte) (hi : i = some (.wrTx w)) (hx : s.xfer ≠ .none)
      (hrx : t.com.rx = assembleRx first second)
      (htransfers : t.transfers = s.transfers ++
        [{ sent := txLo w, reply := first }, { sent := txHi w, reply := second }])
      (hfaulted : t.faulted = s.faulted)
  | records (w : Word) (hi : i = some (.wrTx w)) (hx : s.xfer = .none) (hrx : t.com.rx = s.com.rx)
      (htransfers : t.transfers = s.transfers)
      (hfaulted : t.faulted = some { error := .unattachedTransferTarget, req := 0x100, wdata := w })

/-- No effect reads the waiting inputs. -/
theorem Effect.of_inbox {s t : State} {rest : List Input} {i : Option Instr}
    (h : Effect { s with inbox := rest } i t) : Effect s i t := by
  cases h with
  | none hrx htransfers hfaulted => exact .none hrx htransfers hfaulted
  | sends w first second hi hx hrx htransfers hfaulted => exact .sends w first second hi hx hrx htransfers hfaulted
  | records w hi hx hrx htransfers hfaulted => exact .records w hi hx hrx htransfers hfaulted

/-- Every transaction completes, takes no input, leaves a peripheral attached or none, and has one of the three effects
(R104, D3, D9, D10, D12). -/
theorem exec_completes (i : Instr) (s : State) :
    ∃ t, exec i s = .next t ∧ t.inbox = s.inbox ∧ t.xfer.isSome = s.xfer.isSome ∧ Effect s (some i) t := by
  by_cases hi : ∃ w, i = .wrTx w
  · obtain ⟨w, rfl⟩ := hi
    cases hx : s.xfer with
    | none => exact ⟨_, exec_wrTx_unattached w hx, rfl, by simp [hx], .records w rfl hx rfl rfl rfl⟩
    | some p =>
      exact ⟨_, exec_wrTx_attached w hx, rfl, rfl, .sends w _ _ rfl (by simp [hx]) (txFields_rx ..) rfl rfl⟩
  · obtain ⟨c, a, he, hrx, -, -⟩ := exec_frame (not_exists.mp hi) s
    exact ⟨_, he, rfl, rfl, .none hrx rfl rfl⟩

/-- The effect of a transaction whose next state is known. -/
theorem exec_effect {i : Instr} {s t : State} (h : exec i s = .next t) : Effect s (some i) t := by
  obtain ⟨t', he, -, -, heffect⟩ := exec_completes i s
  cases he.symm.trans h
  exact heffect

/-- A step starts without a record and has the effect of the transaction it runs, if it runs one. -/
theorem step_effect {s t : State} (h : step s = .next t) : s.faulted = none ∧ Effect s s.nextTransaction t := by
  obtain ⟨hf, ⟨-, rfl⟩ | ⟨rest, i, hi, -, he⟩ | ⟨rest, -, -, rfl⟩ | ⟨rest, p, -, -, rfl⟩ | ⟨rest, -, -, rfl⟩⟩ :=
    step_cases h
  · exact ⟨hf, .none rfl rfl rfl⟩
  · exact ⟨hf, hi ▸ (exec_effect he).of_inbox⟩
  · exact ⟨hf, .none rfl rfl rfl⟩
  · exact ⟨hf, .none rfl rfl rfl⟩
  · exact ⟨hf, .none rfl rfl rfl⟩

/-- The last two replies, right after two calls (R20). -/
theorem lastTwoReplies_append (history : List Transfer) (a b : Transfer) :
    lastTwoReplies (history ++ [a, b]) = assembleRx a.reply b.reply := by
  simp [lastTwoReplies, assembleRx]

/-- With `rx` and the history left, `rx` holds the last two replies as before (R20). -/
theorem State.RxHoldsLastReplies.of_same {s t : State} (hrx : t.com.rx = s.com.rx)
    (htransfers : t.transfers = s.transfers) (h : s.RxHoldsLastReplies) : t.RxHoldsLastReplies := by
  rwa [State.RxHoldsLastReplies, hrx, htransfers]

/-- No record is of no other access (R104). -/
theorem recordIsOfTx_of_none {s : State} (h : s.faulted = none) : s.RecordIsOfTx :=
  fun _ hr => nomatch h.symm.trans hr

/-! ### The boot rule (R121, R125) -/

/-- An accepted input is a transaction, a reset or a host action (R11). -/
theorem inputAccepted_cases {input : Input} (h : inputAccepted input = true) :
    (∃ i, transactionOf input = some i) ∨ input = .reset ∨ (∃ p, input = .attach p) ∨ input = .detach := by
  cases hr : requestOf input with
  | some r =>
    obtain ⟨hb, ho⟩ : r.bytes = 4 ∧ r.offset < 256 := by simpa [inputAccepted, hr] using h
    left
    simp [transactionOf, hr, decode_of_accepted hb ho]
  | none =>
    cases input with
    | bus r => simp [requestOf] at hr
    | mem isWrite addr bytes w => simp [inputAccepted, hr] at h
    | reset => exact .inr (.inl rfl)
    | attach p => exact .inr (.inr (.inl ⟨p, rfl⟩))
    | detach => exact .inr (.inr (.inr rfl))

/-- A transaction is no host action: the attachment is as before (R112). -/
theorem attachedAfter_of_transaction {input : Input} {i : Instr} (h : transactionOf input = some i) (attached : Bool) :
    attachedAfter attached input = attached := by
  cases input with
  | bus | mem | reset => rfl
  | attach | detach => cases h

/-- An accepted input, a ComTx write only while a peripheral is attached, runs to a next state without a record, takes
no input behind it and leaves what `attachedAfter` says attached (R121, R125). -/
theorem runInput_of_accepted {input : Input} {s : State} (hacc : inputAccepted input = true)
    (htx : (s.xfer.isSome || !inputSends input) = true) :
    ∃ t, runInput input s = .next t ∧ t.faulted = s.faulted ∧ t.inbox = s.inbox ∧
      t.xfer.isSome = attachedAfter s.xfer.isSome input := by
  obtain ⟨i, hi⟩ | rfl | ⟨p, rfl⟩ | rfl := inputAccepted_cases hacc
  · obtain ⟨t, he, hinbox, hxfer, heffect⟩ := exec_completes i s
    refine ⟨t, (runInput_of_transaction hi s).trans he, ?_, hinbox, ?_⟩
    · cases heffect with
      | none _ _ hfaulted => exact hfaulted
      | sends _ _ _ _ _ _ _ hfaulted => exact hfaulted
      | records w hw hx => simp [inputSends, hi, hw, hx] at htx
    · rw [hxfer, attachedAfter_of_transaction hi]
  · exact ⟨_, rfl, rfl, rfl, rfl⟩
  · exact ⟨_, rfl, rfl, rfl, rfl⟩
  · exact ⟨_, rfl, rfl, rfl, rfl⟩

/-- Inputs that obey the boot rule: the oldest is accepted, a ComTx write only while a peripheral is attached, and those
behind it obey the rule after it. -/
theorem bootRule_cons {attached : Bool} {input : Input} {rest : List Input} :
    bootRule attached (input :: rest) = true ↔
      inputAccepted input = true ∧ (attached || !inputSends input) = true ∧
        bootRule (attachedAfter attached input) rest = true := by
  simp only [bootRule, Bool.and_eq_true, and_assoc]

/-- A step under the boot rule completes without a record and leaves the rest of the inputs under the rule. -/
theorem step_bootRule {s : State} (hf : s.faulted = none) (hrule : bootRule s.xfer.isSome s.inbox = true) :
    ∃ t, step s = .next t ∧ t.faulted = none ∧ bootRule t.xfer.isSome t.inbox = true ∧ t.inbox = s.inbox.drop 1 := by
  cases hi : s.inbox with
  | nil => exact ⟨s, step_idle hf hi, hf, hrule, hi⟩
  | cons input rest =>
    obtain ⟨hacc, htx, hrest⟩ := bootRule_cons.mp (hi ▸ hrule)
    obtain ⟨t, hrun, hft, hinbox, hxfer⟩ := runInput_of_accepted (s := { s with inbox := rest }) hacc htx
    refine ⟨t, (step_input hf hi).trans hrun, hft.trans hf, ?_, hinbox⟩
    rw [hinbox, hxfer]
    exact hrest

/-- A run of one more step, after a step that completes. -/
theorem run_succ_of_step {M : Host.Core} {s t : M.State} (h : M.step s = .next t) (k : Nat) :
    M.run (k + 1) s = M.run k t := by
  rw [Host.Core.run, h]

/-- A run under the boot rule, of one step for each input, ends in a final state (R104, R121). -/
theorem run_bootRule (n : Nat) {s : State} (hn : s.inbox.length = n) (hf : s.faulted = none)
    (hrule : bootRule s.xfer.isSome s.inbox = true) : ∃ t, Host.Core.run core n s = .next t ∧ t.Final := by
  induction n generalizing s with
  | zero => exact ⟨s, rfl, hf, List.eq_nil_of_length_eq_zero hn⟩
  | succ n ih =>
    obtain ⟨u, hstep, hfu, hruleu, hdrop⟩ := step_bootRule hf hrule
    have hlen : u.inbox.length = n := by rw [hdrop, List.length_drop, hn, Nat.add_sub_cancel]
    rw [run_succ_of_step (M := core) hstep]
    exact ih hlen hfu hruleu

end Sys2Proof.Machine

namespace Sys2Proof.Proofs
open Sys2Proof.Machine

/-- Settles O52: the oldest input is accepted, so it runs, and only an unattached ComTx write would record an error. -/
theorem bootRuleIsKeptByEveryStep : Obligations.BootRuleIsKeptByEveryStep :=
  fun _ hf hrule => step_bootRule hf hrule

/-- Settles O49, by induction on the number of inputs, each taken by a step that keeps the boot rule. -/
theorem bootRuleRunsToAFinalState : Obligations.BootRuleRunsToAFinalState :=
  fun _ hf hrule => run_bootRule _ rfl hf hrule

/-- Settles O45: a step that makes calls makes two and leaves their replies in `rx`; any other leaves both. -/
theorem rxHoldsTheLastRepliesAfterEveryStep : Obligations.RxHoldsTheLastRepliesAfterEveryStep := by
  intro s t h
  obtain ⟨-, heffect⟩ := step_effect h
  cases heffect with
  | none hrx htransfers => exact ⟨.of_same hrx htransfers, fun hne => absurd hrx hne⟩
  | sends w first second hi _ hrx htransfers =>
    refine ⟨fun _ => ?_, fun _ => ⟨w, hi⟩⟩
    rw [State.RxHoldsLastReplies, htransfers, lastTwoReplies_append, hrx]
  | records w _ _ hrx htransfers => exact ⟨.of_same hrx htransfers, fun hne => absurd hrx hne⟩

/-- Settles O43: of the three effects only an attached ComTx write's adds to the history, its own two calls. -/
theorem transfersComeInPairsFromTxWrites : Obligations.TransfersComeInPairsFromTxWrites := by
  intro s t h
  obtain ⟨-, heffect⟩ := step_effect h
  cases heffect with
  | none _ htransfers => exact .inl htransfers
  | sends w first second hi hx _ htransfers =>
    refine .inr ⟨w, first, second, hi, hx, ?_⟩
    rw [htransfers, ← txLo_toNat, ← txHi_toNat]
    simp
  | records _ _ _ _ htransfers => exact .inl htransfers

/-- Settles O46: a step starts without a record, so one after it is the unattached ComTx write's. -/
theorem errorRecordIsOfAnUnattachedTxWrite : Obligations.ErrorRecordIsOfAnUnattachedTxWrite := by
  intro s t _ h
  obtain ⟨hf, heffect⟩ := step_effect h
  cases heffect with
  | none _ _ hfaulted => exact ⟨recordIsOfTx_of_none (hfaulted.trans hf), absurd (hfaulted.trans hf)⟩
  | sends _ _ _ _ _ _ _ hfaulted => exact ⟨recordIsOfTx_of_none (hfaulted.trans hf), absurd (hfaulted.trans hf)⟩
  | records w hi hx _ _ hfaulted =>
    refine ⟨fun record hr => ?_, fun _ => ⟨hx, w, hi, hfaulted⟩⟩
    cases hfaulted.symm.trans hr
    exact ⟨rfl, rfl⟩

/-- Settles O41: of the three effects only the unattached ComTx write's touches the record. -/
theorem everyTransactionCompletes : Obligations.EveryTransactionCompletes := by
  intro i s
  obtain ⟨t, he, -, -, heffect⟩ := exec_completes i s
  refine ⟨t, he, fun hne => ?_⟩
  cases heffect with
  | none _ _ hfaulted => exact absurd hfaulted hne
  | sends _ _ _ _ _ _ _ hfaulted => exact absurd hfaulted hne
  | records w hi hx => exact ⟨w, Option.some_inj.mp hi, hx⟩

/-- Settles O42: the frame, whose fields change for three writes only. -/
theorem frameOutsideTheTxWrite : Obligations.FrameOutsideTheTxWrite :=
  fun _ s hi => exec_frame hi s

end Sys2Proof.Proofs
end

section
/-! PROOFS. Reads as one function of the fields, what a write takes from its low operand bits, and the event writes in
every state; then the statements on single accesses (R28, R69, R78, R84, R85, D3, D10, D19). -/

namespace Sys2Proof.Machine

/-! ### Reads -/

/-- The data a read answers, from the block's fields (R61); 0 stands for a write, which has none. -/
def readImage (i : Instr) (c : ComState) : Word :=
  match i with
  | .rdTx => regImage .tx c
  | .rdRx => regImage .rx c
  | .rdControl => regImage .control c
  | .rdStatus => regImage .status c
  | .rdEvStatus => regImage .evStatus c
  | .rdEvPending => regImage .evPending c
  | .rdEvEnable => regImage .evEnable c
  | _ => unmappedImage

/-- Every read answers its image and changes nothing else (R69). -/
theorem exec_of_isRead {i : Instr} (h : i.isRead = true) (s : State) :
    exec i s = .next { s with answer := .rdata (readImage i s.com) } := by
  cases i with
  | rdTx | rdRx | rdControl | rdStatus | rdEvStatus | rdEvPending | rdEvEnable => rfl
  | rdUnmapped1C | rdUnmapped20 | rdUnmapped40 | rdUnmapped80 | rdMisalignedOdd | rdMisalignedHalf => rfl
  | _ => cases h

/-- A 16-bit value extended to 32 bits has nothing above bit 15 (R9). -/
theorem zext32_getLsbD_of_le (v : Half) {k : Nat} (hk : 16 ≤ k) : (zext32 v).getLsbD k = false := by
  rw [zext32, BitVec.getLsbD_setWidth, BitVec.getLsbD_of_ge v k hk, Bool.and_false]

/-! ### The low bits of an operand (R28, R60) -/

/-- Words that agree under a mask agree on each of its bits. -/
theorem getLsbD_eq_of_and_eq {w w' m : Word} (h : w &&& m = w' &&& m) {k : Nat} (hk : m.getLsbD k = true) :
    w.getLsbD k = w'.getLsbD k := by
  have hbit := congrArg (·.getLsbD k) h
  simpa only [BitVec.getLsbD_and, hk, Bool.and_true] using hbit

/-- The bits below 16 are the mask's. -/
theorem getLsbD_lowHalf {k : Nat} (hk : k < 16) : (0xFFFF : Word).getLsbD k = true := by
  interval_cases k <;> rfl

/-- Words that agree on their low half send the same low byte (R60). -/
theorem txLo_eq_of_and_eq {w w' : Word} (h : w &&& 0xFFFF = w' &&& 0xFFFF) : txLo w = txLo w' := by
  apply BitVec.eq_of_getLsbD_eq
  intro k hk
  simp only [txLo, BitVec.getLsbD_extractLsb', getLsbD_eq_of_and_eq h (getLsbD_lowHalf (k := 0 + k) (by omega))]

/-- Words that agree on their low half send the same high byte (R60). -/
theorem txHi_eq_of_and_eq {w w' : Word} (h : w &&& 0xFFFF = w' &&& 0xFFFF) : txHi w = txHi w' := by
  apply BitVec.eq_of_getLsbD_eq
  intro k hk
  simp only [txHi, BitVec.getLsbD_extractLsb', getLsbD_eq_of_and_eq h (getLsbD_lowHalf (k := 8 + k) (by omega))]

/-- An attached ComTx write depends on the two bytes it sends alone (R28, R90). -/
theorem exec_wrTx_congr {w w' : Word} {s : State} {p : Peripheral} (hx : s.xfer = some p) (hlo : txLo w = txLo w')
    (hhi : txHi w = txHi w') : exec (.wrTx w) s = exec (.wrTx w') s := by
  rw [exec_wrTx_attached w hx, exec_wrTx_attached w' hx]
  simp only [txFields, txCalls, hlo, hhi]

/-- A write of ComControl, ComEvPending or ComEvEnable depends on the two low operand bits alone (R28). -/
theorem exec_write_congr_lowBits {w w' : Word} (h0 : bit0 w = bit0 w') (h1 : bit1 w = bit1 w') (s : State) :
    exec (.wrControl w) s = exec (.wrControl w') s ∧
    exec (.wrEvPending w) s = exec (.wrEvPending w') s ∧
    exec (.wrEvEnable w) s = exec (.wrEvEnable w') s := by
  simp only [exec, execWrControl, execWrEvPending, execWrEvEnable, storeControl, storeEvPending, storeEvEnable, h0, h1,
    and_self]

/-! ### The same write again (20_memory section 3) -/

/-- An acknowledge after the same acknowledge, with their `Recompute()`s, stores what is there. -/
theorem recompute_storeEvPending_idem (w : Word) (c : ComState) :
    recompute (storeEvPending w (recompute (storeEvPending w c))) = recompute (storeEvPending w c) := by
  have hbit (p b st : Bool) : (((p && !b) || st) && !b || st) = ((p && !b) || st) := by
    cases p <;> cases b <;> cases st <;> rfl
  simp [recompute_eq, storeEvPending, storeBit, hbit]

/-- Storing the same enables again, with the `Recompute()`s, stores what is there. -/
theorem recompute_storeEvEnable_idem (w : Word) (c : ComState) :
    recompute (storeEvEnable w (recompute (storeEvEnable w c))) = recompute (storeEvEnable w c) := by
  simp [recompute_eq, storeEvEnable, storeBit]

end Sys2Proof.Machine

namespace Sys2Proof.Proofs
open Sys2Proof.Machine

/-- Settles O4: an offset off the double-word grid decodes to a row without a register, and the four rows named are
such rows. -/
theorem misalignedAccessesTouchNothing : Obligations.MisalignedAccessesTouchNothing := by
  refine ⟨fun off w s hodd => ?_, fun off w s => ?_⟩
  · have hrow : (decodeRead off).readsNoRegister = true := (decodeRead_readsNoRegister off).mpr (.inl hodd)
    rw [decodeWord_read, decodeWord_write]
    exact ⟨exec_of_readsNoRegister hrow s, exec_withOperand_of_readsNoRegister hrow w s⟩
  · exact ⟨exec_of_readsNoRegister rfl s, exec_of_readsNoRegister rfl s,
      exec_withOperand_of_readsNoRegister (i := .rdMisalignedOdd off) rfl w s,
      exec_withOperand_of_readsNoRegister (i := .rdMisalignedHalf off) rfl w s⟩

/-- Settles O7: the value is the read's image of the fields. -/
theorem readsDependOnBlockFieldsOnly : Obligations.ReadsDependOnBlockFieldsOnly :=
  fun i c hread => ⟨readImage i c, fun s hc => hc ▸ exec_of_isRead hread s⟩

/-- Settles O10: the write's equation in every state. -/
theorem acknowledgeThenRecomputesInEveryState : Obligations.AcknowledgeThenRecomputesInEveryState :=
  execWrEvPending_eq

/-- Settles O12: the write's equation in every state. -/
theorem enableThenRecomputesInEveryState : Obligations.EnableThenRecomputesInEveryState :=
  execWrEvEnable_eq

/-- Settles O13: the three words decode to their rows, whose meanings store the fields they find. -/
theorem readOnlyRegistersIgnoreWrites : Obligations.ReadOnlyRegistersIgnoreWrites :=
  fun w s => ⟨rfl, rfl, rfl, ignoreWrite_eq s, ignoreWrite_eq s, congrArg (answerWrite · s) (storeEvStatus_eq w s.com)⟩

/-- Settles O22: the images end at bit 1 or bit 15; a write takes the two low operand bits or, a ComTx write, the two
low bytes, and the record of an unattached one is left aside. -/
theorem reservedBitsHoldNothing : Obligations.ReservedBitsHoldNothing := by
  refine ⟨fun s => ?_, fun s w w' h => ?_, fun s w w' h => ⟨rfl, ?_⟩⟩
  · have hpair (b1 b0 : Bool) {k : Nat} (hk : 2 ≤ k) := pair_getLsbD_of_two_le b1 b0 hk
    exact ⟨_, _, _, _, _, _, rfl, rfl, rfl, rfl, rfl, rfl, rfl, fun _ => zext32_getLsbD_of_le s.com.rx,
      fun _ hk => ⟨hpair _ _ hk, hpair _ _ hk, hpair _ _ hk, hpair _ _ hk, hpair _ _ hk⟩⟩
  · have h0 : bit0 w = bit0 w' := getLsbD_eq_of_and_eq h rfl
    have h1 : bit1 w = bit1 w' := getLsbD_eq_of_and_eq h rfl
    obtain ⟨hcontrol, hpending, henable⟩ := exec_write_congr_lowBits h0 h1 s
    exact ⟨hcontrol, hpending, henable, rfl, rfl⟩
  · cases hx : s.xfer with
    | none =>
      exact ⟨_, _, exec_wrTx_unattached w hx, exec_wrTx_unattached w' hx, rfl, fun hne => absurd rfl hne⟩
    | some p =>
      have hsame := exec_wrTx_congr hx (txLo_eq_of_and_eq h) (txHi_eq_of_and_eq h)
      exact ⟨_, _, exec_wrTx_attached w hx, hsame ▸ exec_wrTx_attached w hx, rfl, fun _ => rfl⟩

/-- Settles O25: the three stores leave the status bits at 0, where `Recompute()` is the identity. -/
theorem recomputeAfterAnyWriteAgrees : Obligations.RecomputeAfterAnyWriteAgrees := by
  intro w c hs
  have hpending : (storeEvPending w c).Settled := hs
  have henable : (storeEvEnable w c).Settled := hs
  have hcontrol : (storeControl w c).Settled := hs
  exact ⟨recompute_of_settled hpending, recompute_of_settled henable, recompute_of_settled hcontrol⟩

/-- Settles O50: each of the three writes stores what it stored the first time. -/
theorem controlAndEventWritesAreIdempotent : Obligations.ControlAndEventWritesAreIdempotent := by
  rintro w s _ (rfl | rfl | rfl)
  · exact ⟨_, rfl, rfl⟩
  · exact ⟨_, rfl, congrArg (answerWrite · _) (recompute_storeEvPending_idem w s.com)⟩
  · exact ⟨_, rfl, congrArg (answerWrite · _) (recompute_storeEvEnable_idem w s.com)⟩

end Sys2Proof.Proofs
end

section
/-! PROOFS. Delivered accesses, refused or run, as equations of the step; then the statements on steps, on reset() and
host actions, on construction and on the source's scenario (R11, R40, R43, R112, R115 to R118, W9). -/

namespace Sys2Proof.Machine

/-! ### The step that takes an access -/

section
variable {s : State} {rest : List Input} {r : BusRequest}

/-- The step of an access that decodes is its transaction (R11, R46). -/
theorem step_bus_of_decode {i : Instr} (hf : s.faulted = none) (hi : s.inbox = .bus r :: rest)
    (hd : decode r = .ok i) : step s = exec i { s with inbox := rest } :=
  (step_input hf hi).trans (runInput_of_transaction (by simp [transactionOf, requestOf, hd]) _)

/-- An access that is not decoded is refused by the error's name (R40, R43). -/
theorem runRequest_of_error {e : DecodeError} (hd : decode r = .error e) (s : State) :
    runRequest r s = .refused (refusalOf e) := by
  simp [runRequest, hd]

/-- The step of an access that is not decoded refuses it by name (R40, R43). -/
theorem step_bus_of_error {e : DecodeError} (hf : s.faulted = none) (hi : s.inbox = .bus r :: rest)
    (hd : decode r = .error e) : step s = .refused (refusalOf e) :=
  (step_input hf hi).trans (runRequest_of_error hd _)

end

/-- A double word on the system bus outside the window is refused (R40, D20; log 21). -/
theorem runMem_outside {addr : Nat} (h : addr < systemAddress 0 ∨ systemAddress 0xFF < addr) (isWrite : Bool) (w : Word)
    (s : State) : runMem isWrite addr 4 w s = .refused .outsideWindow := by
  have hlow : systemAddress 0 = Config.comBase := rfl
  have hhigh : systemAddress 0xFF = Config.comBase + 255 := rfl
  rw [hlow, hhigh] at h
  by_cases hbelow : addr < Config.comBase
  · simp [runMem, windowAccess, hbelow]
  · have hoff : 256 ≤ addr - Config.comBase := by omega
    have hplaced : runMem isWrite addr 4 w s =
        runRequest { isWrite := isWrite, offset := addr - Config.comBase, bytes := 4, wdata := w } s := by
      simp [runMem, windowAccess, hbelow]
    rw [hplaced, runRequest_of_error (decode_outside rfl hoff)]
    rfl

/-- A machine with a recorded error is not in a final state (R104). -/
theorem not_final_of_faulted {s : State} {record : FaultRecord} (h : s.faulted = some record) : ¬ s.Final :=
  fun ⟨hf, _⟩ => nomatch hf.symm.trans h

/-- The pair image of two bits at 0 (R61). -/
theorem pair_false_false : pair false false = 0 := rfl

/-! ### The source's scenario (W9) -/

/-- Its first half: the ComControl write arms the pulse, and a ComTx write to an echo peripheral brings its own value
back and pends the event, the enable as it was. -/
theorem execAll_control_tx {s : State} (w : Word) (hq : s.com.Quiet) (hx : s.xfer = some .echo) :
    ∃ t, execAll [.wrControl 1, .wrTx w] s = .next t ∧ t.com.rx.toNat = w.toNat % 65536 ∧ t.com.Quiet ∧
      t.com.intPending = true ∧ t.com.intEnable = s.com.intEnable := by
  obtain ⟨⟨hint, hhold⟩, hholdPending⟩ := hq
  have hsend := exec_wrTx_attached (s := { s with com := storeControl 1 s.com, answer := .done }) w hx
  refine ⟨_, (execAll_cons_of_next (exec_wrControl 1 s) _).trans (execAll_cons_of_next hsend []),
    txFields_echo_rx_toNat s.draws w _, ⟨Settled_pulse ⟨hint, hhold⟩, ?_⟩, ?_, ?_⟩
  · simp [txFields, pulse_eq, hholdPending, hhold]
  · simp [bit0]
  · simp [txFields, pulse_eq]

/-- Its second half: from a quiet state the enable of a pending event raises the line, and the acknowledge clears the
event and takes the line down. -/
theorem exec_enable_ack {t : State} (hq : t.com.Quiet) (hp : t.com.intPending = true) :
    ∃ t₂ t₃, exec (.wrEvEnable 1) t = .next t₂ ∧ irqLine t₂ = true ∧
      exec (.wrEvPending 1) t₂ = .next t₃ ∧ t₃.com.intPending = false ∧ irqLine t₃ = false := by
  obtain ⟨hs, hholdPending⟩ := hq
  have hs₂ : (storeEvEnable 1 t.com).Settled := hs
  refine ⟨_, _, exec_wrEvEnable_of_settled 1 hs, ?_, exec_wrEvPending_of_settled 1 hs₂, ?_, ?_⟩
  · simp [irqLine, ComState.irq, hp, bit0]
  · simp [bit0]
  · simp [irqLine, ComState.irq, hholdPending, bit0]

end Sys2Proof.Machine

namespace Sys2Proof.Proofs
open Sys2Proof.Machine Sys2Proof.Laws

/-- Settles O27: the images of the six zeroed fields are 0, those of the three kept fields are as before; the step is
that of a machine whose oldest input is the reset. -/
theorem afterResetTheEventRegistersReadZero : Obligations.AfterResetTheEventRegistersReadZero := by
  refine ⟨fun s => ?_, fun s rest hf hi => ?_⟩
  · have hzero : answerRead (pair false false) (applyReset s) = answerRead 0 (applyReset s) :=
      congrArg (answerRead · _) pair_false_false
    exact ⟨_, _, rfl, hzero, hzero, hzero, exec_rdControl s, exec_rdControl (applyReset s), exec_of_isRead rfl s,
      exec_of_isRead rfl (applyReset s), rfl, rfl⟩
  · exact ⟨_, step_reset hf hi, rfl, rfl, rfl, rfl, hf, rfl, rfl, rfl⟩

/-- Settles O28: the step of a host action is its update of the attachment, which the line does not read. -/
theorem hostActionsChangeTheAttachmentOnly : Obligations.HostActionsChangeTheAttachmentOnly :=
  fun _ _ _ hf => ⟨fun hi => ⟨_, step_input hf hi, rfl, rfl⟩, fun hi => ⟨_, step_input hf hi, rfl, rfl⟩⟩

/-- Settles O29: every field of the constructed block is 0, nothing was sent and nothing is recorded. -/
theorem constructionMeetsTheInvariants : Obligations.ConstructionMeetsTheInvariants :=
  ⟨⟨⟨rfl, rfl⟩, rfl⟩, rfl, recordIsOfTx_of_none rfl, rfl, rfl, rfl, rfl, rfl, fun _ => ⟨rfl, rfl, rfl⟩, rfl, rfl, rfl⟩

/-- Settles O30: the step takes the input off, and an input that is a transaction runs as it. -/
theorem stepRunsTheDecodedAccess : Obligations.StepRunsTheDecodedAccess :=
  fun _ _ _ _ hf hi hd => step_bus_of_decode hf hi hd

/-- Settles O31: the base placed and taken off again leaves the offset; an address below the base is placed nowhere, and
one above the window beyond it. -/
theorem systemBusAccessIsPlacedByTheBase : Obligations.SystemBusAccessIsPlacedByTheBase := by
  refine fun s rest isWrite w bytes hf => ⟨fun off hi => ?_, fun addr hi hout => ?_⟩
  · rw [step_input hf hi, step_input (s := { s with inbox := _ :: rest }) hf rfl]
    simp only [runInput, runMem, windowAccess_systemAddress]
  · exact (step_input hf hi).trans (runMem_outside hout isWrite w _)

/-- Settles O32: the decoder's two errors are the two refusals, and a transaction always completes. -/
theorem foreignAccessesAreRefusedByName : Obligations.ForeignAccessesAreRefusedByName := by
  refine fun s rest r hf hi => ⟨fun hb => ?_, fun hb ho => ?_, fun hb ho => ?_⟩
  · exact step_bus_of_error hf hi (decode_notDoubleWord hb)
  · exact step_bus_of_error hf hi (decode_outside hb ho)
  · rw [step_bus_of_decode hf hi (decode_of_accepted hb ho)]
    obtain ⟨t, he, -⟩ := exec_completes (decodeWord (reqWord r.isWrite (BitVec.ofNat 8 r.offset)) r.wdata)
      { s with inbox := rest }
    exact ⟨t, he⟩

/-- Settles O33: the unattached ComTx write's equation records the error, and a recorded error is the next step's
fault. -/
theorem afterAConfigErrorNothingRuns : Obligations.AfterAConfigErrorNothingRuns := by
  refine ⟨fun s w rest hf hx hi => ?_, fun s record hr => ⟨step_faulted hr, not_final_of_faulted hr⟩⟩
  have hstep := (step_bus_of_decode hf hi (decode_encode (i := .wrTx w) rfl)).trans (exec_wrTx_unattached w hx)
  exact ⟨_, _, hstep, rfl, rfl, rfl, step_faulted rfl⟩

/-- Settles O34: the idle step. -/
theorem idleMachineKeepsItsState : Obligations.IdleMachineKeepsItsState :=
  fun _ hi hf => step_idle hf hi

/-- Settles O51: the scenario's two halves; between them the event is pending, but neither source is pending and
enabled. -/
theorem sendEnableAcknowledgeScenario : Obligations.SendEnableAcknowledgeScenario := by
  intro s w hq _ he hx
  obtain ⟨t₁, hrun, hrx, ⟨hs₁, hheld₁⟩, hp₁, he₁⟩ := execAll_control_tx w hq hx
  obtain ⟨t₂, t₃, hrest⟩ := exec_enable_ack ⟨hs₁, hheld₁⟩ hp₁
  have hlow : irqLine t₁ = false := by simp [irqLine_eq_false_iff, he₁, he, hheld₁]
  exact ⟨t₁, t₂, t₃, hrun, hrx, hp₁, hlow, hrest⟩

end Sys2Proof.Proofs
end
